-- ==== Sys2Proof/Word.lean ====
section
/-! DEFINITION. The word types the FL6 deals in, the lane numbers, and `Quad`, a fixed group of four like things
(four eyes, four stackers). Only the plainest arithmetic stands here; what a rule of the manual says about a value
is in the files under `Machine/`. -/

namespace Sys2Proof

/-- One byte of the image, of a notice or of an SPI transaction (R188). -/
abbrev Byte := BitVec 8

/-- A lane, numbered 1 to 4 across the belt (00_scope, Lanes); lane n is the value n - 1. -/
abbrev Lane := Fin 4

/-- A lane set: bit n - 1 stands for lane n (R188). -/
abbrev LaneSet := BitVec 4

/-- One of the four stackers, 0..3 (R161). -/
abbrev StackerNo := Fin 4

/-- The four lanes in rising order. -/
def lanes : List Lane := [0, 1, 2, 3]

/-- The lane number 1..4 that the formats carry (R190). -/
def laneNumber (k : Lane) : Nat := k.val + 1

/-- A fixed group of four like things, one for each lane or for each stacker. -/
structure Quad (α : Type) where
  /-- lane 1, or stacker 0 -/
  q0 : α
  /-- lane 2, or stacker 1 -/
  q1 : α
  /-- lane 3, or stacker 2 -/
  q2 : α
  /-- lane 4, or stacker 3 -/
  q3 : α
  deriving DecidableEq, Repr

/-- The member of a group that stands at place `k`. -/
def Quad.get {α : Type} (v : Quad α) (k : Fin 4) : α :=
  match k with
  | 0 => v.q0
  | 1 => v.q1
  | 2 => v.q2
  | 3 => v.q3

/-- The group with the member at place `k` replaced. -/
def Quad.set {α : Type} (v : Quad α) (k : Fin 4) (x : α) : Quad α :=
  match k with
  | 0 => { v with q0 := x }
  | 1 => { v with q1 := x }
  | 2 => { v with q2 := x }
  | 3 => { v with q3 := x }

/-- Every member of the group changed by `f`, which is told the member's place. -/
def Quad.mapAt {α β : Type} (f : Fin 4 → α → β) (v : Quad α) : Quad β :=
  ⟨f 0 v.q0, f 1 v.q1, f 2 v.q2, f 3 v.q3⟩

/-- The group whose four members are all `x`. -/
def Quad.all {α : Type} (x : α) : Quad α := ⟨x, x, x, x⟩

end Sys2Proof
end

