-- ==== Sys2Proof/Syntax.lean ====
section
/-! DEFINITION. The commands of the FL6: one constructor for each row of spec/opcode_table.json, with the levels,
lanes, bytes and bits that the row's rule says come with the event. -/

namespace Sys2Proof

/-- The levels of the station's input lines at the moment hard reset ends (R1, R51, R15): what the part finds on the
inputs that it holds a level of. -/
structure Pins where
  /-- encoder phase A -/
  phaseA : Bool
  /-- encoder phase B -/
  phaseB : Bool
  /-- the belt-run input, active -/
  beltRun : Bool
  /-- the hold input, active -/
  hold : Bool
  /-- the spreader-ready input, active -/
  spreaderReady : Bool
  /-- the lanes whose raw photo-eye input is blocked -/
  eyesBlocked : LaneSet
  deriving DecidableEq, Repr

/-- Every input inactive, both phases 0 and every eye clear. -/
def Pins.inactive : Pins := ⟨false, false, false, false, false, 0⟩

/-- One command of the block: an event on a line, a timer's expiry, an event of the line bus or a command taken
through the station processor port. Levels of the line bus are given as bits: `false` is dominant (0) and `true` is
recessive (1) (R28). -/
inductive Instr where
  /-- HARD_RESET (R51): power-up or the reset pin, with the input levels found as reset ends -/
  | hardReset (pins : Pins)
  /-- DECODER_EVENT (R1): the encoder phase pair becomes (a, b) -/
  | decoderEvent (a b : Bool)
  /-- BELT_RUN_INPUT_CHANGE (R8): the belt-run input takes the level given -/
  | beltRunInputChange (active : Bool)
  /-- ENCODER_LOSS_TIMER_EXPIRY (R9) -/
  | encoderLossTimerExpiry
  /-- EYE_RAW_CHANGE (R15): the raw photo-eye input of a lane takes the level given -/
  | eyeRawChange (lane : Lane) (blocked : Bool)
  /-- EYE_DEBOUNCE_EXPIRY (R15): the debounce timer of a lane's eye expires -/
  | eyeDebounceExpiry (lane : Lane)
  /-- CLAMP_CLOSED_EDGE (R122): the clamp-closed input goes active with the profile-select lines at `select`
  (line n is bit n - 1, R24) -/
  | clampClosedEdge (select : BitVec 4)
  /-- SPREADER_READY_RISING (R124) -/
  | spreaderReadyRising
  /-- SPREADER_READY_FALLING (R124) -/
  | spreaderReadyFalling
  /-- RELEASE_PULSE_EXPIRY (R125) -/
  | releasePulseExpiry
  /-- SPREADER_STUCK_TIMER_EXPIRY (R125) -/
  | spreaderStuckTimerExpiry
  /-- BATCH_CLOSE_INPUT_ACTIVE (R25) -/
  | batchCloseInputActive
  /-- HOLD_INPUT_CHANGE (R61): the hold input takes the level given -/
  | holdInputChange (active : Bool)
  /-- DISCHARGE_DONE (R165): the discharge-done input of a stacker goes active -/
  | dischargeDone (stacker : StackerNo)
  /-- BLADE_PULSE_EXPIRY (R14) -/
  | bladePulseExpiry
  /-- SETTLE_TIMER_EXPIRY (R54) -/
  | settleTimerExpiry
  /-- OFF_LINE_TIMER_EXPIRY (R38) -/
  | offLineTimerExpiry
  /-- SEND_ATTEMPT_START (R30): the port drives the start bit of its first waiting frame -/
  | sendAttemptStart
  /-- LOST_CONTENTION (R35): the bit at place `pos` of the frame in send, counted from the start bit with stuff bits,
  reads back at the opposite level -/
  | lostContention (pos : Nat)
  /-- TRANSMIT_FAILURE (R36): the bit at place `pos` of the frame in send reads back at the opposite level -/
  | transmitFailure (pos : Nat)
  /-- TRANSMIT_COMPLETION (R37): the last end-run bit of the frame in send has been driven with no mismatch -/
  | transmitCompletion
  /-- FRAME_ABANDONED (R32): the bits of a frame, from its start bit to the bit that breaks the bit rules -/
  | frameAbandoned (bits : List Bool)
  /-- RECEIVED_FRAME_END (R46): the bits of a frame, from its start bit to its last end-run bit -/
  | receivedFrameEnd (bits : List Bool)
  /-- READ_STATUS (R186) -/
  | readStatus
  /-- READ_FAULTS (R186) -/
  | readFaults
  /-- ACK_FAULTS (R177): bit k - 1 of the set stands for kind k (R185) -/
  | ackFaults (kinds : BitVec 16)
  /-- READ_TALLY (R187) -/
  | readTally (n : Byte)
  /-- READ_IMAGE (R183) -/
  | readImage (offset : BitVec 16) (count : Byte)
  /-- WRITE_CONFIG (R183): the command's count is the length of `data` -/
  | writeConfig (offset : BitVec 16) (data : List Byte)
  /-- VALIDATE (R184) -/
  | validate
  /-- JOIN (R53) -/
  | join
  /-- LEAVE (R68) -/
  | leave
  /-- STOP_LINE (R65) -/
  | stopLine
  /-- RESUME (R66) -/
  | resume
  /-- CLOSE_STACK (R167) -/
  | closeStack (stacker : Byte)
  /-- CLEAR_RESTART (R59) -/
  | clearRestart
  /-- UNKNOWN_COMMAND (R181): a command code that is in no row of R182's table -/
  | unknownCommand (code : Byte)
  /-- TRANSACTION_CUT_SHORT (R181): the select input takes the level given with no command taken. Going inactive it
  ends a transaction before its take; going active, which R181 names and the table has no row of its own for, it begins
  one (notes/assumptions/23.md). Written without its level, it is the row itself: select going inactive -/
  | transactionCutShort (active : Bool := false)
  /-- MEDIUM_BECOMES_IDLE (R30): the medium becomes idle, as the port reads its 11th consecutive recessive bit, or is
  idle no longer, as it reads a dominant bit that it did not drive: the start bit of another station's frame, which R30
  names and the table has no row of its own for (notes/assumptions/26.md). Written without its operand, it is the row
  itself: the medium becomes idle -/
  | mediumBecomesIdle (idle : Bool := true)
  deriving DecidableEq, Repr

end Sys2Proof
end

