-- ==== Sys2Proof/WellFormed.lean ====
section
/-! DEFINITION. What a command must meet to be one the part can be given: the bounds that the frame's format (R31,
R32) and the SPI commands (R182) put on its operands. -/

namespace Sys2Proof

/-- The longest frame in bits, from the start bit to the last end-run bit: 93 bits of start, identifier, length,
8 data bytes and check, a stuff bit after every 4 of them past the first, and the end run (R31, R32). -/
def maxFrameBits : Nat := 124

/-- The shortest frame of no data bytes, without stuff bits (R31). -/
def minFrameBits : Nat := 37

/-- A bit list that can be a frame or the beginning of one: it begins with the dominant start bit (R31) and is no
longer than a frame. -/
def beginsFrame (bits : List Bool) : Bool := bits.head? == some false && decide (bits.length ≤ maxFrameBits)

/-- The command codes of R182's first table. -/
def commandCodes : List Byte :=
  [0x01, 0x02, 0x03, 0x04, 0x05, 0x10, 0x11, 0x20, 0x21, 0x22, 0x23, 0x24, 0x25]

/-- The check of one command's operands. -/
def Instr.wellFormed : Instr → Bool
  | .hardReset _ => true
  | .decoderEvent _ _ => true
  | .beltRunInputChange _ => true
  | .encoderLossTimerExpiry => true
  | .eyeRawChange _ _ => true
  | .eyeDebounceExpiry _ => true
  | .clampClosedEdge _ => true
  | .spreaderReadyRising => true
  | .spreaderReadyFalling => true
  | .releasePulseExpiry => true
  | .spreaderStuckTimerExpiry => true
  | .batchCloseInputActive => true
  | .holdInputChange _ => true
  | .dischargeDone _ => true
  | .bladePulseExpiry => true
  | .settleTimerExpiry => true
  | .offLineTimerExpiry => true
  | .sendAttemptStart => true
  | .lostContention pos => decide (pos < maxFrameBits)
  | .transmitFailure pos => decide (pos < maxFrameBits)
  | .transmitCompletion => true
  | .frameAbandoned bits => beginsFrame bits
  | .receivedFrameEnd bits => beginsFrame bits && decide (minFrameBits ≤ bits.length)
  | .readStatus => true
  | .readFaults => true
  | .ackFaults _ => true
  | .readTally _ => true
  | .readImage _ _ => true
  | .writeConfig _ data => decide (data.length ≤ 255)
  | .validate => true
  | .join => true
  | .leave => true
  | .stopLine => true
  | .resume => true
  | .closeStack _ => true
  | .clearRestart => true
  | .unknownCommand code => !commandCodes.contains code
  | .transactionCutShort _ => true
  | .mediumBecomesIdle _ => true

end Sys2Proof
end

