-- ==== Sys2Proof/Decode.lean ====
section
/-! DEFINITION. Decoding. The command table gives no row any bits, so no table word spells a command. The commands of
the station processor port have an encoding of their own, the bytes of an SPI transaction (R181, R182): their decoder
stands here, total on any bytes, and their encoder after it. -/

namespace Sys2Proof

/-- The command that a table word spells: the table gives no row any bits, so none (notes/assumptions/1.md). -/
def decodeTableWord (_nbits _w : Nat) : Option Instr := none

/-! ### The transactions of the station processor port (R181, R182) -/

/-- A two-byte argument, the more significant byte first (R188). -/
def wordArgument (hi lo : Byte) : BitVec 16 := hi ++ lo

/-- The command that a transaction's bytes spell, from the command byte on: a transaction that ends before its take is
cut short, an unknown code is taken at the command byte, and what comes after the take is not read (R181, R182). -/
def decodeTransaction (bytes : List Byte) : Instr :=
  match bytes with
  | [] => .transactionCutShort false
  | 0x01#8 :: _ => .readStatus
  | 0x02#8 :: _ => .readFaults
  | 0x03#8 :: hi :: lo :: _ => .ackFaults (wordArgument hi lo)
  | 0x03#8 :: _ => .transactionCutShort false
  | 0x04#8 :: n :: _ => .readTally n
  | 0x04#8 :: _ => .transactionCutShort false
  | 0x05#8 :: hi :: lo :: count :: _ => .readImage (wordArgument hi lo) count
  | 0x05#8 :: _ => .transactionCutShort false
  | 0x10#8 :: hi :: lo :: count :: data =>
    if count.toNat ≤ data.length then .writeConfig (wordArgument hi lo) (data.take count.toNat)
    else .transactionCutShort false
  | 0x10#8 :: _ => .transactionCutShort false
  | 0x11#8 :: _ => .validate
  | 0x20#8 :: _ => .join
  | 0x21#8 :: _ => .leave
  | 0x22#8 :: _ => .stopLine
  | 0x23#8 :: _ => .resume
  | 0x24#8 :: c :: _ => .closeStack c
  | 0x24#8 :: _ => .transactionCutShort false
  | 0x25#8 :: _ => .clearRestart
  | code :: _ => .unknownCommand code

/-- The two bytes of a two-byte argument, the more significant byte first (R188). -/
def argumentBytes (w : BitVec 16) : List Byte := [w.extractLsb' 8 8, w.setWidth 8]

/-- The bytes that the processor sends for a command of its port, up to the take (R182); none for the other
commands. -/
def encodeTransaction : Instr → Option (List Byte)
  | .readStatus => some [0x01]
  | .readFaults => some [0x02]
  | .ackFaults kinds => some (0x03 :: argumentBytes kinds)
  | .readTally n => some [0x04, n]
  | .readImage offset count => some (0x05 :: (argumentBytes offset ++ [count]))
  | .writeConfig offset data => some (0x10 :: (argumentBytes offset ++ BitVec.ofNat 8 data.length :: data))
  | .validate => some [0x11]
  | .join => some [0x20]
  | .leave => some [0x21]
  | .stopLine => some [0x22]
  | .resume => some [0x23]
  | .closeStack c => some [0x24, c]
  | .clearRestart => some [0x25]
  | .unknownCommand code => some [code]
  | .transactionCutShort false => some []
  | .hardReset _ | .decoderEvent _ _ | .beltRunInputChange _ | .encoderLossTimerExpiry | .eyeRawChange _ _
  | .eyeDebounceExpiry _ | .clampClosedEdge _ | .spreaderReadyRising | .spreaderReadyFalling | .releasePulseExpiry
  | .spreaderStuckTimerExpiry | .batchCloseInputActive | .holdInputChange _ | .dischargeDone _ | .bladePulseExpiry
  | .settleTimerExpiry | .offLineTimerExpiry | .sendAttemptStart | .lostContention _ | .transmitFailure _
  | .transmitCompletion | .frameAbandoned _ | .receivedFrameEnd _ | .mediumBecomesIdle _
  | .transactionCutShort true => none

end Sys2Proof
end

