-- ==== Sys2Proof/Config.lean ====
section
/-! DEFINITION. The constants the manual fixes for every FL6: capacities, fixed timer lengths and limits. What a
station sets for itself stands in its image, which is state. There is no free value: the manual leaves no value of
the part's open (NOTES.md, Assumptions). -/

namespace Sys2Proof.Config

/-- The join settle period, ms (R53). -/
def settleMs : Nat := 250
/-- The off-line period, ms (R38). -/
def offLineMs : Nat := 1000
/-- Consecutive transmit failures that take the port off-line (R38). -/
def offLineFailures : Nat := 16
/-- Frames the transmit queue holds (R39). -/
def queueCapacity : Nat := 8
/-- Entries the expectation list holds (R71). -/
def listCapacity : Nat := 32
/-- Stretches the belt map holds (R126). -/
def mapCapacity : Nat := 24
/-- Records the feed queue holds (R121). -/
def feedCapacity : Nat := 2
/-- Actions the action list holds (R155). -/
def actionCapacity : Nat := 16
/-- Records the tally queue holds (R169). -/
def tallyCapacity : Nat := 16
/-- Pieces a pre-stack holds (R163). -/
def preStackCapacity : Nat := 3
/-- Bytes of the configuration image (R183). -/
def imageBytes : Nat := 320
/-- The greatest age an age field carries (R45). -/
def maxAge : Nat := 1023
/-- The greatest tolerance of an entry (R76). -/
def maxTolerance : Nat := 2047
/-- The greatest nominal length (R20, R74). -/
def maxNominal : Nat := 6000
/-- The greatest hole length that any profile table allows (R145). -/
def maxHoleLength : Nat := 8046

end Sys2Proof.Config
end

