-- ==== Sys2Proof/Machine/State.lean ====
section
/-! DEFINITION. The state of one FL6, block by block as 00_scope's block overview lists them, and its value after
hard reset. Plain data throughout: an output line that always follows other state is a function in Flags.lean. -/

namespace Sys2Proof.Machine

open Sys2Proof

/-- Why the block stops with a fault. There is no constructor: no rule of the manual stops the part, and no command
of the model ends in a fault. -/
inductive Fault where
  deriving DecidableEq, Repr

/-- Why a command has no meaning in the model. -/
inductive Refusal where
  /-- Raised by `exec` for a command whose row has no meaning yet; no arm raises it now. Safe: the model stops where
  the part would go on. -/
  | notModelled (mnemonic : String)
  deriving DecidableEq, Repr

/-! ### Shared pieces -/

/-- The tag of a piece: origin.sequence (R17); two tags are the same when both parts are. -/
structure Tag where
  origin : Byte
  seq : Byte
  deriving DecidableEq, Repr

/-- A timer of the time base (R13): stopped, or running with its length and the time of its start, both in ms. -/
inductive Timer where
  | stopped
  | running (length start : Nat)
  deriving DecidableEq, Repr

/-- The flags of a piece record (chapter 2.1, R16). -/
structure Flags where
  batchClose : Bool
  stray : Bool
  unverified : Bool
  short : Bool
  long : Bool
  /-- the flag the manual calls partial -/
  partialSight : Bool
  deriving DecidableEq, Repr

/-- The piece record (chapter 2.1, R16). -/
structure Piece where
  tag : Tag
  profile : Nat
  mask : LaneSet
  nominal : Nat
  measured : Option Nat
  flags : Flags
  deriving DecidableEq, Repr

/-- A passage (chapter 6.4): one piece across the eye line. -/
structure Passage where
  seen : LaneSet
  blocked : LaneSet
  travel : Nat
  degraded : Bool
  stuck : Bool
  deriving DecidableEq, Repr

/-- The 16 fault kinds (chapter 10), in the order of their numbers. -/
inductive FaultKind where
  | lost | stray | length | partialSight | eyeStuck | eyeSilent | encoder | listFull
  | lateNotice | unannounced | feed | fold | route | lineBus | peer | tally
  deriving DecidableEq, Repr

/-- One occurrence as a block reports it to the fault unit (chapter 10): kind, tag, lane and 16-bit detail. -/
structure Occurrence where
  kind : FaultKind
  tag : Option Tag
  lane : Option Lane
  detail : BitVec 16
  deriving DecidableEq, Repr

/-! ### Travel unit (chapter 1) -/

/-- The travel unit: quadrature decoder, encoder count, fraction, belt-run level and encoder loss. -/
structure TravelUnit where
  /-- the held phase pair (R1) -/
  phaseA : Bool
  phaseB : Bool
  /-- the encoder count, which wraps (R2) -/
  count : BitVec 16
  /-- the fraction f, in 1/256 mm (R3) -/
  fraction : Nat
  /-- the level of the belt-run input (chapter 1.4) -/
  beltRun : Bool
  /-- the ENCODER LOST condition (R9); it is also the park cause of that name (R61) -/
  lost : Bool
  /-- the encoder-loss timer (R8) -/
  lossTimer : Timer
  deriving DecidableEq, Repr

/-! ### Eye unit (chapter 6.1) -/

/-- The standing of an eye with the unit (chapter 6.2). -/
inductive EyeState where
  | normal | suspect | stuck | off
  deriving DecidableEq, Repr

/-- One eye channel (chapter 6.1). -/
structure Eye where
  /-- the raw input level: blocked -/
  raw : Bool
  /-- the debounced level: blocked (R95) -/
  blocked : Bool
  state : EyeState
  /-- the consecutive-loss count (R100) -/
  losses : Nat
  clearRun : Nat
  blockedRun : Nat
  /-- the debounce timer (R15) -/
  debounce : Timer
  deriving DecidableEq, Repr

/-! ### Line port (chapter 3) -/

/-- The age field and the stale flag of a DROP, PASS or HOLE (R45). -/
structure Stamp where
  age : Nat
  stale : Bool
  deriving DecidableEq, Repr

/-- A notice with its fields (R34, R188). A frame in the transmit queue holds one, and so does a received frame. -/
inductive Notice where
  | halt (reason : Nat) (tag : Option Tag)
  | resume
  | loss (tag : Tag) (mask : LaneSet) (batchClose : Bool)
  | pass (tag : Tag) (profile : Nat) (mask : LaneSet) (flags : Flags) (length : Nat) (stamp : Stamp)
  | drop (tag : Tag) (profile : Nat) (mask : LaneSet) (batchClose : Bool) (nominal : Nat) (stamp : Stamp)
  | hole (mask : LaneSet) (head length : Nat) (stamp : Stamp)
  | present (role laneCount sum : Nat) (restarted defend : Bool)
  deriving DecidableEq, Repr

/-- A slot of the transmit queue (R39). The block that queued the frame is fixed by the notice's kind. -/
structure Slot where
  notice : Notice
  /-- the slot age of a DROP, PASS or HOLE (R44); 0 and unread for the other kinds -/
  age : Nat
  /-- in send, or else waiting -/
  inSend : Bool
  deriving DecidableEq, Repr

/-- The port's view of the medium (R29, R30). -/
inductive Medium where
  /-- not idle, and no frame is followed: 11 recessive bits have not been read yet -/
  | busy
  | idle
  /-- the station's own frame is in send -/
  | sending
  /-- another station's frame is followed: from its start bit, read at an idle medium (R30), or read on after the
  station's own attempt ended part-way; `failed` says that the attempt ended in a transmit failure (R35, R36, R46) -/
  | following (failed : Bool)
  deriving DecidableEq, Repr

/-- The line port. -/
structure LinePort where
  active : Bool
  medium : Medium
  /-- the transmit queue in the order of R39 -/
  queue : List Slot
  /-- the consecutive-failure count (R36) -/
  failures : Nat
  offLine : Bool
  offLineTimer : Timer
  deriving DecidableEq, Repr

/-! ### Station control (chapter 4) -/

/-- The station states (chapter 4). -/
inductive StationState where
  | unconfigured | configured | joining | running | lockout
  deriving DecidableEq, Repr

/-- Why the station is in LOCKOUT (R55). -/
inductive LockoutCause where
  | failedPresent
  /-- the kind code of the own-address frame -/
  | ownAddress (kindCode : Nat)
  deriving DecidableEq, Repr

/-- The first-halt record (R63). -/
structure FirstHalt where
  address : Nat
  reason : Nat
  tag : Option Tag
  deriving DecidableEq, Repr

/-- The reason and tag of the own halt (R65). -/
structure OwnHalt where
  reason : Nat
  tag : Option Tag
  deriving DecidableEq, Repr

/-- The kinds that station control announces (R67). -/
inductive Announced where
  | halt | resume
  deriving DecidableEq, Repr

/-- Station control. -/
structure StationControl where
  state : StationState
  departure : Bool
  lockoutCause : Option LockoutCause
  restartFlag : Bool
  /-- the level of the hold input; it is also the park cause HOLD INPUT (R61) -/
  holdInput : Bool
  /-- the halt set: bit n stands for address n (R62) -/
  haltSet : BitVec 16
  firstHalt : Option FirstHalt
  ownHalt : Option OwnHalt
  /-- the announcement state's two parts (R67) -/
  queued : Option Announced
  owed : Option Announced
  settleTimer : Timer
  /-- the sequence counter (R18) -/
  seq : Byte
  deriving DecidableEq, Repr

/-! ### Tracker (chapters 5 and 6) -/

/-- An expectation entry (R70). It is PASSING exactly while it holds a passage, and AWAITED otherwise. -/
structure Entry where
  piece : Piece
  remaining : Int
  early : Nat
  late : Nat
  passage : Option Passage
  /-- the placing (R72): a later one is greater -/
  placing : Nat
  deriving DecidableEq, Repr

/-- What an orphan gains when its eye goes clear (chapter 6.6). -/
structure OrphanClear where
  measured : Nat
  /-- travel since the trailing edge -/
  since : Nat
  deriving DecidableEq, Repr

/-- An orphan record (R114); its lane is its place in the tracker. It is clear exactly while `clear` is present. -/
structure Orphan where
  /-- travel since the leading edge, t -/
  travel : Nat
  clear : Option OrphanClear
  stuck : Bool
  degraded : Bool
  deriving DecidableEq, Repr

/-- An adopted passage (R118): a stray whose eyes are still blocked. -/
structure Adopted where
  piece : Piece
  passage : Passage
  deriving DecidableEq, Repr

/-- The tracker. -/
structure Tracker where
  /-- the expectation list in list order (R71) -/
  entries : List Entry
  /-- the placing the next placed entry gets (R72) -/
  nextPlacing : Nat
  /-- the orphan record of each lane, if any (R114) -/
  orphans : Quad (Option Orphan)
  /-- the adopted passages, in order of adoption (R118) -/
  adopted : List Adopted
  deriving DecidableEq, Repr

/-! ### Feed unit and hole unit (chapters 7 and 8) -/

/-- The spreader handshake (R124). -/
inductive Handshake where
  | waiting | ready | clearing
  deriving DecidableEq, Repr

/-- What a stretch of the belt map stands for (chapter 7.2). -/
inductive StretchKind where
  | piece | reserved | ownHole
  deriving DecidableEq, Repr

/-- A stretch of the belt map (R126). -/
structure Stretch where
  kind : StretchKind
  owner : Nat
  tag : Option Tag
  mask : LaneSet
  /-- the head position h -/
  head : Int
  length : Nat
  growing : Bool
  /-- the own hole's HOLE has completed; `false` for the other kinds -/
  confirmed : Bool
  deriving DecidableEq, Repr

/-- The feed unit. -/
structure FeedUnit where
  /-- the feed queue, oldest record first (R121) -/
  queue : List Piece
  /-- the head record's ready mark (R121) -/
  ready : Bool
  handshake : Handshake
  /-- the level of the spreader-ready input (R124) -/
  spreader : Bool
  /-- the release pulse's timer; the release output is active exactly while it runs (R14, R125) -/
  releaseTimer : Timer
  /-- the spreader stuck timer (R125) -/
  stuckTimer : Timer
  /-- the tag of the piece last dropped (R125) -/
  lastDropped : Option Tag
  /-- the patience counter (R138) -/
  patience : Nat
  /-- the batch-close latch (R25) -/
  batchLatch : Bool
  /-- the belt map in its order (R126) -/
  map : List Stretch
  deriving DecidableEq, Repr

/-- The frame state of the hole unit (R141). -/
inductive FrameState where
  | none | current | abandoned
  deriving DecidableEq, Repr

/-- The fit of the own hole (R141). -/
structure Fit where
  gapBefore : Nat
  nominal : Nat
  gapAfter : Nat
  deriving DecidableEq, Repr

/-- The hole unit. The own hole itself is the OWN HOLE stretch of the belt map (R141). -/
structure HoleUnit where
  fit : Option Fit
  frame : FrameState
  deriving DecidableEq, Repr

/-! ### Sort unit (chapter 9) -/

/-- A destination or route code (R156): a stacker, or runout (code 4). -/
inductive Dest where
  | stacker (c : StackerNo)
  | runout
  deriving DecidableEq, Repr

/-- What an action does (chapter 9.5). -/
inductive ActionKind where
  | setRoute (code : Dest)
  | fireBlade
  deriving DecidableEq, Repr

/-- A timed action of the action list (R158, R159). -/
structure Action where
  kind : ActionKind
  countdown : Int
  deriving DecidableEq, Repr

/-- A stack now forming, or a pre-stack (chapter 9.6). -/
structure Stack where
  count : Nat
  profile : Option Nat
  first : Option Tag
  last : Option Tag
  mixed : Bool
  unverified : Bool
  deriving DecidableEq, Repr

/-- A stacker (R161). -/
structure Stacker where
  /-- DISCHARGING, or else COLLECTING; its discharge output is active exactly while it is DISCHARGING (R164, R165) -/
  discharging : Bool
  stack : Stack
  pre : Stack
  batchOwed : Bool
  deriving DecidableEq, Repr

/-- Why a stack was closed (R164, R190). -/
inductive CloseReason where
  | count | batch | profile | operator
  deriving DecidableEq, Repr

/-- A tally record (R164, R190). -/
structure Tally where
  stacker : StackerNo
  profile : Option Nat
  count : Nat
  reason : CloseReason
  mixed : Bool
  unverified : Bool
  first : Option Tag
  last : Option Tag
  deriving DecidableEq, Repr

/-- The sort unit. -/
structure SortUnit where
  /-- the action list in its order (R158) -/
  actions : List Action
  /-- the route output's code (R159) -/
  route : Dest
  /-- the last route decision (R157) -/
  lastRoute : Dest
  /-- the gap counter and the entry gap (R153) -/
  gapCounter : Nat
  entryGap : Nat
  stackers : Quad Stacker
  /-- the blade pulse's timer; the blade output is active exactly while it runs (R14, R159) -/
  bladeTimer : Timer
  /-- the runout count (R168) -/
  runout : Nat
  /-- the tally queue, oldest record first (R169) -/
  tally : List Tally
  deriving DecidableEq, Repr

/-! ### Fault unit (chapter 10) -/

/-- The severity of a fault kind (R171). -/
inductive Severity where
  | note | hold | halt
  deriving DecidableEq, Repr

/-- The policy in force for one kind (R171). -/
structure Policy where
  masked : Bool
  severity : Severity
  deriving DecidableEq, Repr

/-- The fault unit. -/
structure FaultUnit where
  /-- the policy in force of kinds 1..16 (R171) -/
  policy : Vector Policy 16
  /-- the counts of kinds 1..16 (R172) -/
  counts : Vector Nat 16
  /-- the pending set: bit k - 1 stands for kind k (R173) -/
  pending : BitVec 16
  /-- the first-fault record (R175) -/
  first : Option Occurrence
  /-- the more-faults flag (R175) -/
  more : Bool
  deriving DecidableEq, Repr

/-! ### Processor port (chapter 11) -/

/-- The configuration image: its bytes from offset 0 (R183). -/
abbrev Image := List Byte

/-- The station processor port. -/
structure ProcessorPort where
  image : Image
  frozen : Bool
  /-- the transaction in progress, from select going active to its take: the status byte formed as select went active
  (R181) -/
  transaction : Option Byte
  /-- the bytes the part returns in the last transaction, first to last: the status byte, 00h on each argument byte, the
  result code and the response (R181) -/
  returned : List Byte
  deriving DecidableEq, Repr

/-- The state of one FL6. -/
structure State where
  /-- the millisecond time base (R12) -/
  timeBase : Nat
  travel : TravelUnit
  eyes : Quad Eye
  port : LinePort
  control : StationControl
  tracker : Tracker
  feed : FeedUnit
  hole : HoleUnit
  sort : SortUnit
  faults : FaultUnit
  spi : ProcessorPort
  /-- the commands that wait, first in, first out: the model's own field -/
  pending : List Instr
  deriving DecidableEq, Repr

/-! ### The values after hard reset -/

/-- The flags of a record at its creation by a FEED station (R24). -/
def Flags.none : Flags := ⟨false, false, false, false, false, false⟩

/-- A stack with nothing on it (R161). -/
def Stack.empty : Stack := ⟨0, none, none, none, false, false⟩

/-- A stacker as R170 gives it. -/
def Stacker.cleared : Stacker := ⟨false, .empty, .empty, false⟩

/-- An eye after hard reset whose raw input is at the level given (R15, R96). -/
def Eye.cleared (raw : Bool) : Eye := ⟨raw, raw, .normal, 0, 0, 0, .stopped⟩

/-- The default policy of R171: every kind unmasked, with the severity of the table at the head of chapter 10. -/
def Policy.default : Vector Policy 16 :=
  #v[⟨false, .note⟩, ⟨false, .note⟩, ⟨false, .note⟩, ⟨false, .note⟩,
     ⟨false, .hold⟩, ⟨false, .note⟩, ⟨false, .hold⟩, ⟨false, .hold⟩,
     ⟨false, .note⟩, ⟨false, .note⟩, ⟨false, .note⟩, ⟨false, .note⟩,
     ⟨false, .note⟩, ⟨false, .hold⟩, ⟨false, .note⟩, ⟨false, .note⟩]

/-- The tracker with nothing tracked (R94, R120). -/
def Tracker.cleared : Tracker := ⟨[], 0, .all none, []⟩

/-- The feed unit as R140 gives it, the spreader-ready input being at the level given. -/
def FeedUnit.cleared (spreader : Bool) : FeedUnit :=
  ⟨[], false, .waiting, spreader, .stopped, .stopped, none, 0, false, []⟩

/-- The hole unit as R141 gives it. -/
def HoleUnit.cleared : HoleUnit := ⟨none, .none⟩

/-- The sort unit as R170 gives it, with the runout count and the tally queue given. -/
def SortUnit.cleared (runout : Nat) (tally : List Tally) : SortUnit :=
  ⟨[], .runout, .runout, 65535, 65535, .all .cleared, .stopped, runout, tally⟩

/-- The line port while it is inactive (R29, R43). -/
def LinePort.inactive : LinePort := ⟨false, .busy, [], 0, false, .stopped⟩

/-- The whole part after hard reset with the input levels found as reset ends: R1, R2, R7, R11, R12, R18, R29, R51,
R94, R96, R120, R140, R141, R170, R180, R183. -/
def State.afterReset (pins : Pins) : State where
  timeBase := 0
  travel := ⟨pins.phaseA, pins.phaseB, 0, 0, pins.beltRun, false, .stopped⟩
  eyes := ⟨.cleared (pins.eyesBlocked.getLsbD 0), .cleared (pins.eyesBlocked.getLsbD 1),
    .cleared (pins.eyesBlocked.getLsbD 2), .cleared (pins.eyesBlocked.getLsbD 3)⟩
  port := .inactive
  control := ⟨.unconfigured, false, none, true, pins.hold, 0, none, none, none, none, .stopped, 0⟩
  tracker := .cleared
  feed := .cleared pins.spreaderReady
  hole := .cleared
  sort := .cleared 0 []
  faults := ⟨Policy.default, Vector.replicate 16 0, 0, none, false⟩
  spi := ⟨List.replicate Config.imageBytes 0, false, none, []⟩
  pending := []

/-- The machine right after reset, with every input line inactive (notes/assumptions/2.md) and no command waiting. -/
def State.reset : State := State.afterReset Pins.inactive

end Sys2Proof.Machine
end

