-- ==== Sys2Proof/Machine/Operands.lean ====
section
/-! DEFINITION. What the commands' rules read: saturated distances (00_scope, Widths and saturation), lane sets,
the fields of the configuration image (R189), the profile values (R20, R21, R22), the listen table (R48), and the
layout of each notice's data bytes (R188). -/

namespace Sys2Proof.Machine

open Sys2Proof

/-! ### Widths and saturation -/

/-- A signed distance held in 16 bits (00_scope, Widths and saturation). -/
def sat16 (x : Int) : Int := max (-32768) (min 32767 x)

/-- An unsigned travel counter held in 16 bits (00_scope, Widths and saturation). -/
def satU16 (x : Int) : Nat := (max 0 (min 65535 x)).toNat

/-- A travel counter after a travel advance of d mm: forward travel adds, reverse travel subtracts. -/
def addTravel (n : Nat) (d : Int) : Nat := satU16 (n + d)

/-- A signed 16-bit detail (R80). -/
def detail16 (x : Int) : BitVec 16 := BitVec.ofInt 16 x

/-- A whole number divided and rounded up. -/
def ceilDiv (a b : Nat) : Nat := (a + b - 1) / b

/-- The more and the less significant byte of a two-byte value, in the order sent (R188). -/
def wordBytes (n : Nat) : List Byte := [BitVec.ofNat 8 (n / 256), BitVec.ofNat 8 n]

/-- The two-byte value whose more significant byte is `hi` (R188). -/
def wordOf (hi lo : Byte) : Nat := hi.toNat * 256 + lo.toNat

/-- A two-byte value taken as two's complement (R188). -/
def signedWord (n : Nat) : Int := if n < 32768 then n else (n : Int) - 65536

/-- A byte from its bits, bit 0 first. -/
def bitsByte (b0 b1 b2 b3 b4 b5 b6 b7 : Bool) : Byte :=
  BitVec.ofNat 8 (b0.toNat + 2 * b1.toNat + 4 * b2.toNat + 8 * b3.toNat
    + 16 * b4.toNat + 32 * b5.toNat + 64 * b6.toNat + 128 * b7.toNat)

/-! ### Lane sets -/

/-- The lane is a member of the set. -/
def hasLane (m : LaneSet) (k : Lane) : Bool := m.getLsbD k.val

/-- The set that holds one lane. -/
def laneBit (k : Lane) : LaneSet := BitVec.ofNat 4 (2 ^ k.val)

/-- The set with a lane added. -/
def addLane (m : LaneSet) (k : Lane) : LaneSet := m ||| laneBit k

/-- The set with a lane removed. -/
def dropLane (m : LaneSet) (k : Lane) : LaneSet := m &&& ~~~ laneBit k

/-- Two lane sets hold a lane in common (R126). -/
def lanesMeet (a b : LaneSet) : Bool := (a &&& b) != 0

/-- The lanes 1..n. -/
def lanesUpTo (n : Nat) : LaneSet := BitVec.ofNat 4 (2 ^ n - 1)

/-- The members of a lane set, lowest lane first. -/
def laneList (m : LaneSet) : List Lane := lanes.filter (hasLane m)

/-- The lane of a set that holds one lane; none for any other set. -/
def soleLane (m : LaneSet) : Option Lane :=
  match laneList m with
  | [k] => some k
  | _ => none

/-- The lane set of the lanes in a list. -/
def laneSetOf (l : List Lane) : LaneSet := l.foldl addLane 0

/-! ### The configuration image (R189) -/

/-- The image byte at an offset. -/
def Image.byte (im : Image) (o : Nat) : Nat := (im.getD o 0).toNat

/-- The two-byte image field at an offset. -/
def Image.word (im : Image) (o : Nat) : Nat := Image.byte im o * 256 + Image.byte im (o + 1)

/-- The three roles (00_scope). -/
inductive Role where
  | feed | check | sort
  deriving DecidableEq, Repr

/-- The station address. -/
def Image.address (im : Image) : Nat := Image.byte im 0x000
/-- The role; none for a byte that is no role's. -/
def Image.role (im : Image) : Option Role :=
  match Image.byte im 0x001 with
  | 1 => some .feed
  | 2 => some .check
  | 3 => some .sort
  | _ => none
/-- The lane count. -/
def Image.laneCount (im : Image) : Nat := Image.byte im 0x002
/-- The encoder step S, in 1/256 mm. -/
def Image.step (im : Image) : Nat := Image.word im 0x004
/-- The encoder loss time, ms (R8). -/
def Image.lossMs (im : Image) : Nat := Image.byte im 0x006 * 10
/-- The eye debounce time, ms (R95). -/
def Image.debounceMs (im : Image) : Nat := Image.byte im 0x007
/-- The lanes whose eye-off flag is set (R96). -/
def Image.eyesOff (im : Image) : LaneSet := BitVec.ofNat 4 (Image.byte im 0x008)
/-- The dark count (R100). -/
def Image.darkCount (im : Image) : Nat := Image.byte im 0x009
/-- The stuck length, mm (R98). -/
def Image.stuckLength (im : Image) : Nat := Image.word im 0x00A
/-- The orphan grace, mm (R117). -/
def Image.grace (im : Image) : Nat := Image.word im 0x00C
/-- The skew, mm (R104). -/
def Image.skew (im : Image) : Nat := Image.byte im 0x00E
/-- The early and the late per-mille (R76). -/
def Image.earlyPerMille (im : Image) : Nat := Image.byte im 0x00F
/-- The late per-mille (R76). -/
def Image.latePerMille (im : Image) : Nat := Image.byte im 0x010
/-- The home lane (R23). -/
def Image.homeLane (im : Image) : Nat := Image.byte im 0x011
/-- The early fixed part, mm (R76). -/
def Image.earlyFixed (im : Image) : Nat := Image.word im 0x012
/-- The late fixed part, mm (R76). -/
def Image.lateFixed (im : Image) : Nat := Image.word im 0x014
/-- The belt-eye distance E, mm (R130). -/
def Image.beltEye (im : Image) : Nat := Image.word im 0x016
/-- The map horizon, mm (R126). -/
def Image.horizon (im : Image) : Nat := Image.word im 0x018
/-- The hole lead, mm (R142). -/
def Image.holeLead (im : Image) : Nat := Image.word im 0x01A
/-- The patience P, mm (R139). -/
def Image.patience (im : Image) : Nat := Image.word im 0x01C
/-- The release pulse width, ms (R125). -/
def Image.releaseMs (im : Image) : Nat := Image.byte im 0x01E
/-- The spreader stuck time, ms (R125). -/
def Image.spreaderStuckMs (im : Image) : Nat := Image.byte im 0x01F * 10
/-- The stacker count (R161). -/
def Image.stackerCount (im : Image) : Nat := Image.byte im 0x0F8
/-- The blade pulse width, ms (R159). -/
def Image.bladeMs (im : Image) : Nat := Image.byte im 0x0F9
/-- The blade distance B, mm (R154). -/
def Image.bladeDistance (im : Image) : Nat := Image.word im 0x0FA
/-- The blade lead Fl, mm (R154). -/
def Image.bladeLead (im : Image) : Nat := Image.word im 0x0FC
/-- The blade recovery Fr, mm (R154). -/
def Image.bladeRecovery (im : Image) : Nat := Image.word im 0x0FE
/-- The diverter distance V, mm (R157). -/
def Image.diverter (im : Image) : Nat := Image.word im 0x100
/-- The switch gap Vs, mm (R157). -/
def Image.switchGap (im : Image) : Nat := Image.word im 0x102

/-- The sum of the image bytes from offset `a` up to but not including offset `b`, modulo 65536 (R184, R189). -/
def Image.sum (im : Image) (a b : Nat) : Nat := (((im.take b).drop a).map BitVec.toNat).sum % 65536

/-- The profile-table sum (R189). -/
def Image.profileSum (im : Image) : Nat := Image.sum im 0x038 0x0F8

/-- The lanes of this station, 1..lane count (R23). -/
def Image.lanes (im : Image) : LaneSet := lanesUpTo (Image.laneCount im)

/-- The eye of the lane is OFF by this image (R96). -/
def Image.eyeIsOff (im : Image) (k : Lane) : Bool :=
  decide (Image.laneCount im ≤ k.val) || hasLane (Image.eyesOff im) k

/-- The severity that a policy byte gives a kind whose default severity is given (R171, R189). -/
def policyOf (b : Nat) (dflt : Severity) : Policy where
  masked := b / 128 % 2 == 1
  severity :=
    match b % 4 with
    | 0 => dflt
    | 1 => .note
    | 2 => .hold
    | _ => .halt

/-- The policy the image holds (R171). -/
def Image.policy (im : Image) : Vector Policy 16 :=
  let p (k : Fin 16) : Policy := policyOf (Image.byte im (0x12E + k.val)) (Policy.default[k]).severity
  #v[p 0, p 1, p 2, p 3, p 4, p 5, p 6, p 7, p 8, p 9, p 10, p 11, p 12, p 13, p 14, p 15]

/-! ### The listen table (R48) -/

/-- The address byte of listen entry i. -/
def Image.listenAddress (im : Image) (i : Nat) : Nat := Image.byte im (0x020 + 3 * i)

/-- The offset of listen entry i. -/
def Image.listenOffset (im : Image) (i : Nat) : Int := signedWord (Image.word im (0x021 + 3 * i))

/-- The offset of a listed sender; none for a sender that is not listed (R48). -/
def Image.offsetOf (im : Image) (sender : Nat) : Option Int :=
  if sender = 0 then none
  else ((List.range 8).find? fun i => Image.listenAddress im i == sender).map (Image.listenOffset im)

/-! ### The profile table (R20, R21, R22) -/

/-- The lane class of a profile (chapter 2.3). -/
inductive LaneClass where
  | full | single
  deriving DecidableEq, Repr

/-- The fold program of a profile (chapter 2.3). -/
inductive FoldProgram where
  | none | half | thirds
  deriving DecidableEq, Repr

/-- The values of a profile that a station takes for a piece (R20, R21, R22). -/
structure Profile where
  nominal : Nat
  tolerance : Nat
  gapBefore : Nat
  gapAfter : Nat
  laneClass : LaneClass
  fold : FoldProgram
  stackClass : Dest
  target : Nat
  reject : Bool
  /-- the values are those of an own used entry, and not of profile 0; the length check is applied -/
  identified : Bool
  deriving DecidableEq, Repr

/-- The offset of profile entry p (R189). -/
def profileOffset (p : Nat) : Nat := 0x038 + 12 * p

/-- The nominal length in entry p; 0 marks the entry unused (R20). -/
def Image.entryNominal (im : Image) (p : Nat) : Nat := Image.word im (profileOffset p)

/-- The profile is 1..15 and its entry is used (R20). -/
def Image.profileUsed (im : Image) (p : Nat) : Bool :=
  decide (1 ≤ p) && decide (p ≤ 15) && Image.entryNominal im p != 0

/-- The greatest value of a field among the used entries 1..15; 0 if all are unused (R21). -/
def Image.greatest (im : Image) (field : Nat) : Nat :=
  (List.range 16).foldl
    (fun m p => if Image.profileUsed im p then max m (Image.word im (profileOffset p + field)) else m) 0

/-- A stack class from its code: 0..3, or RUNOUT (R189). -/
def stackClassOf (b : Nat) : Dest :=
  match b with
  | 0 => .stacker 0
  | 1 => .stacker 1
  | 2 => .stacker 2
  | 3 => .stacker 3
  | _ => .runout

/-- The built-in profile 0 (R21). -/
def Image.profileZero (im : Image) : Profile where
  nominal := Image.greatest im 0
  tolerance := 0
  gapBefore := Image.greatest im 4
  gapAfter := Image.greatest im 6
  laneClass := .full
  fold := .none
  stackClass := .runout
  target := 63
  reject := false
  identified := false

/-- The values of the used entry p (R189). -/
def Image.profileEntry (im : Image) (p : Nat) : Profile where
  nominal := Image.entryNominal im p
  tolerance := Image.word im (profileOffset p + 2)
  gapBefore := Image.word im (profileOffset p + 4)
  gapAfter := Image.word im (profileOffset p + 6)
  laneClass := if Image.byte im (profileOffset p + 8) = 1 then .single else .full
  fold :=
    match Image.byte im (profileOffset p + 9) with
    | 1 => .half
    | 2 => .thirds
    | _ => .none
  stackClass := stackClassOf (Image.byte im (profileOffset p + 10))
  target := Image.byte im (profileOffset p + 11) % 64
  reject := Image.byte im (profileOffset p + 11) / 128 % 2 == 1
  identified := true

/-- The profile values this station takes for a piece of profile p (R22). -/
def Image.profile (im : Image) (p : Nat) : Profile :=
  if Image.profileUsed im p then Image.profileEntry im p else Image.profileZero im

/-- The lane mask that a profile gives a piece fed here (R23). -/
def Image.feedMask (im : Image) (p : Nat) : LaneSet :=
  match (Image.profile im p).laneClass with
  | .full => Image.lanes im
  | .single => BitVec.ofNat 4 (2 ^ (Image.homeLane im - 1))

/-! ### Validation of the image (R184) -/

/-- A check of one field: the offset it stands at, and whether the field passes. -/
abbrev FieldCheck := Nat × Bool

/-- A one-byte field within a range. -/
def Image.checkByte (im : Image) (o lo hi : Nat) : FieldCheck :=
  (o, decide (lo ≤ Image.byte im o) && decide (Image.byte im o ≤ hi))

/-- A two-byte field within a range. -/
def Image.checkWord (im : Image) (o lo hi : Nat) : FieldCheck :=
  (o, decide (lo ≤ Image.word im o) && decide (Image.word im o ≤ hi))

/-- The two checks of listen entry i (R48, R184). -/
def Image.checkListen (im : Image) (i : Nat) : List FieldCheck :=
  let a := Image.listenAddress im i
  let used := a != 0
  [(0x020 + 3 * i,
      !used || (decide (a ≤ 15) && a != Image.address im
        && (List.range i).all fun j => Image.listenAddress im j != a)),
   (0x021 + 3 * i, !used || Image.role im == some .feed || decide (0 ≤ Image.listenOffset im i))]

/-- The checks of profile entry p, 1..15 (R20, R184, R189). -/
def Image.checkProfile (im : Image) (p : Nat) : List FieldCheck :=
  let o := profileOffset p
  if Image.entryNominal im p = 0 then []
  else
    [Image.checkWord im o 1 Config.maxNominal, Image.checkWord im (o + 2) 0 1023, Image.checkWord im (o + 4) 0 1023,
     Image.checkWord im (o + 6) 0 1023, Image.checkByte im (o + 8) 0 1, Image.checkByte im (o + 9) 0 2,
     Image.checkByte im (o + 10) 0 4,
     (o + 11, Image.byte im (o + 11) % 64 != 0 && Image.byte im (o + 11) / 64 % 2 == 0)]

/-- Every check of a field, in increasing order of offset (R184, R189). A failing fault-policy byte stands at its own
offset 12Eh + k: DESIGN CHOICE, since the table of R189 has the 16 bytes as one field at 12Eh, one byte for each kind
(notes/assumptions/25.md). -/
def Image.fieldChecks (im : Image) : List FieldCheck :=
  [Image.checkByte im 0x000 1 15, Image.checkByte im 0x001 1 3, Image.checkByte im 0x002 1 4,
   Image.checkByte im 0x003 1 3, Image.checkWord im 0x004 16 4095, Image.checkByte im 0x006 1 255,
   Image.checkByte im 0x007 0 15, Image.checkByte im 0x008 0 15, Image.checkByte im 0x009 0 15,
   Image.checkWord im 0x00A 500 65535, Image.checkWord im 0x00C 0 8191,
   (0x011, Image.role im != some .feed
     || (decide (1 ≤ Image.homeLane im) && decide (Image.homeLane im ≤ Image.laneCount im))),
   Image.checkWord im 0x012 0 1023, Image.checkWord im 0x014 0 1023, Image.checkWord im 0x016 0 4095,
   Image.checkWord im 0x018 1000 32767, Image.checkWord im 0x01A 0 4095,
   Image.checkByte im 0x01E 20 255, Image.checkByte im 0x01F 10 255]
  ++ (List.range 8).flatMap (Image.checkListen im)
  ++ (List.range 15).flatMap (fun p => Image.checkProfile im (p + 1))
  ++ [Image.checkByte im 0x0F8 0 4, Image.checkByte im 0x0F9 20 255, Image.checkWord im 0x0FA 0 8191,
      Image.checkWord im 0x0FC 0 1023, Image.checkWord im 0x0FE 0 2047, Image.checkWord im 0x100 0 8191,
      Image.checkWord im 0x102 0 1023]
  ++ (List.range 16).map (fun k => (0x12E + k, Image.byte im (0x12E + k) / 4 % 32 == 0))

/-- The offset of the first failing field, if the image fails validation (R184). -/
def Image.firstFailure (im : Image) : Option Nat :=
  if Image.sum im 0x000 0x13E ≠ Image.word im 0x13E then some 0x13E
  else ((Image.fieldChecks im).find? fun c => !c.2).map (·.1)

/-- The image passes validation (R184). -/
def Image.valid (im : Image) : Bool := (Image.firstFailure im).isNone

/-- The image with bytes written from an offset upward (R183). -/
def Image.write (im : Image) (o : Nat) (data : List Byte) : Image :=
  im.take o ++ data ++ im.drop (o + data.length)

/-! ### Notices (R34, R188) -/

/-- The kind code of a notice (R34). -/
def Notice.code : Notice → Nat
  | .halt .. => 1
  | .resume => 2
  | .loss .. => 3
  | .pass .. => 4
  | .drop .. => 5
  | .hole .. => 6
  | .present .. => 7

/-- The notice is a DROP, PASS or HOLE, which carry an age (R34). -/
def Notice.aged : Notice → Bool
  | .pass .. | .drop .. | .hole .. => true
  | .halt .. | .resume | .loss .. | .present .. => false

/-- The tag a notice carries, if its kind has one (R50). -/
def Notice.tag? : Notice → Option Tag
  | .halt _ t => t
  | .loss t _ _ => some t
  | .pass t _ _ _ _ _ => some t
  | .drop t _ _ _ _ _ => some t
  | .resume | .hole .. | .present .. => none

/-- The notice with its age field and stale flag written (R45). -/
def Notice.stamped (n : Notice) (st : Stamp) : Notice :=
  match n with
  | .pass t p m f l _ => .pass t p m f l st
  | .drop t p m b l _ => .drop t p m b l st
  | .hole m h l _ => .hole m h l st
  | .halt r t => .halt r t
  | .resume => .resume
  | .loss t m b => .loss t m b
  | .present r c s a d => .present r c s a d

/-- The identifier of a frame of this notice kind sent under an address (R34). -/
def identifier (code address : Nat) : Nat := code * 16 + address

/-- The bytes of a tag; no tag is the origin 0 (R188). The sequence byte beside it is 0 then: DESIGN CHOICE, the table is
silent (notes/assumptions/27.md). -/
def tagBytes : Option Tag → List Byte
  | some t => [t.origin, t.seq]
  | none => [0, 0]

/-- The tag in two bytes: an origin of 0 means no tag (R188). -/
def tagOf (o s : Byte) : Option Tag := if o = 0 then none else some ⟨o, s⟩

/-- The data bytes of a notice (R188). Bits that the table gives no content are sent as 0: bits 4..6 of byte 2 of a LOSS,
bit 7 of the flags of a PASS or DROP, bits 4, 5 and 7 of byte 0 of a HOLE, and bits 3..5 of byte 1 of a PRESENT. DESIGN
CHOICE, the table is silent on them (notes/assumptions/27.md); bits 1..5 of a DROP's flags and bits 10..15 of an age are
0 by R188 itself. -/
def Notice.bytes : Notice → List Byte
  | .halt r none => [BitVec.ofNat 8 r]
  | .halt r (some t) => [BitVec.ofNat 8 r, t.origin, t.seq]
  | .resume => []
  | .loss t m b => [t.origin, t.seq, m.setWidth 8 ||| bitsByte false false false false false false false b]
  | .pass t p m f l st =>
    [t.origin, t.seq, m ++ BitVec.ofNat 4 p,
     bitsByte f.batchClose f.stray f.unverified f.short f.long f.partialSight st.stale false]
    ++ wordBytes l ++ wordBytes st.age
  | .drop t p m b l st =>
    [t.origin, t.seq, m ++ BitVec.ofNat 4 p, bitsByte b false false false false false st.stale false]
    ++ wordBytes l ++ wordBytes st.age
  | .hole m h l st =>
    [m.setWidth 8 ||| bitsByte false false false false false false st.stale false]
    ++ wordBytes h ++ wordBytes l ++ wordBytes st.age
  | .present r c s a d =>
    [BitVec.ofNat 8 r, BitVec.ofNat 8 (c % 8) ||| bitsByte false false false false false false a d] ++ wordBytes s

/-- The age field and stale flag in a notice's bytes (R188): bits 10..15 of the age are not read. -/
def stampOf (flags hi lo : Byte) : Stamp := ⟨wordOf hi lo % 1024, flags.getLsbD 6⟩

/-- The notice in the data bytes of a frame of a kind; none where the kind code is no kind's or the data length is
not one that R34 allows for the kind. The bits that the table gives no content (those of `Notice.bytes`) are not read:
DESIGN CHOICE, the table is silent on them (notes/assumptions/27.md). -/
def noticeOf (code : Nat) (data : List Byte) : Option Notice :=
  match code, data with
  | 1, [r] => some (.halt r.toNat none)
  | 1, [r, o, q] => some (.halt r.toNat (tagOf o q))
  | 2, [] => some .resume
  | 3, [o, q, b] => some (.loss ⟨o, q⟩ (b.setWidth 4) (b.getLsbD 7))
  | 4, [o, q, pm, f, l1, l0, a1, a0] =>
    some (.pass ⟨o, q⟩ (pm.setWidth 4).toNat (pm.extractLsb' 4 4)
      ⟨f.getLsbD 0, f.getLsbD 1, f.getLsbD 2, f.getLsbD 3, f.getLsbD 4, f.getLsbD 5⟩ (wordOf l1 l0)
      (stampOf f a1 a0))
  | 5, [o, q, pm, f, l1, l0, a1, a0] =>
    some (.drop ⟨o, q⟩ (pm.setWidth 4).toNat (pm.extractLsb' 4 4) (f.getLsbD 0) (wordOf l1 l0) (stampOf f a1 a0))
  | 6, [b, h1, h0, l1, l0, a1, a0] =>
    some (.hole (b.setWidth 4) (wordOf h1 h0) (wordOf l1 l0) (stampOf b a1 a0))
  | 7, [r, b, s1, s0] =>
    some (.present r.toNat (b.setWidth 3).toNat (wordOf s1 s0) (b.getLsbD 6) (b.getLsbD 7))
  | _, _ => none

/-! ### Fault kinds (chapter 10) -/

/-- The place of a kind in a group of 16: its number less one. -/
def FaultKind.place : FaultKind → Fin 16
  | .lost => 0
  | .stray => 1
  | .length => 2
  | .partialSight => 3
  | .eyeStuck => 4
  | .eyeSilent => 5
  | .encoder => 6
  | .listFull => 7
  | .lateNotice => 8
  | .unannounced => 9
  | .feed => 10
  | .fold => 11
  | .route => 12
  | .lineBus => 13
  | .peer => 14
  | .tally => 15

/-- The number of a kind, 1..16. -/
def FaultKind.number (k : FaultKind) : Nat := k.place.val + 1

/-- The bit of a kind in a kind set: bit k - 1 for kind k (R185). -/
def FaultKind.bit (k : FaultKind) : BitVec 16 := BitVec.ofNat 16 (2 ^ k.place.val)

/-- The kinds in the order of their numbers. -/
def faultKinds : List FaultKind :=
  [.lost, .stray, .length, .partialSight, .eyeStuck, .eyeSilent, .encoder, .listFull,
   .lateNotice, .unannounced, .feed, .fold, .route, .lineBus, .peer, .tally]

end Sys2Proof.Machine
end

