-- ==== Sys2Proof/Machine/Flags.lean ====
section
/-! DEFINITION. What always follows other state: the conditions that rules ask of the station (parked, own halt, the
HOLD and HALT conditions), the output lines, and the status byte, status word, fault report and tally record that the
station processor reads (R181, R186, R190). -/

namespace Sys2Proof.Machine

open Sys2Proof

/-! ### The station -/

/-- The configuration image. -/
def State.image (s : State) : Image := s.spi.image

/-- The station's role, by its image. -/
def State.role (s : State) : Option Role := Image.role s.image

/-- The station is JOINING or RUNNING. -/
def State.onLine (s : State) : Bool := s.control.state == .joining || s.control.state == .running

/-- The station is RUNNING. -/
def State.running (s : State) : Bool := s.control.state == .running

/-- The station is at a role, and JOINING or RUNNING. -/
def State.onLineAs (s : State) (r : Role) : Bool := s.onLine && s.role == some r

/-- The tracker is present: a CHECK or SORT station. -/
def State.tracks (s : State) : Bool := s.role == some .check || s.role == some .sort

/-- The membership bit of an address in the halt set (R62). -/
def addressBit (a : Nat) : BitVec 16 := BitVec.ofNat 16 (2 ^ a)

/-- The address is in the halt set (R62). -/
def State.halted (s : State) (a : Nat) : Bool := s.control.haltSet.getLsbD a

/-- The own halt is outstanding: the own address is a member of the halt set (R62). -/
def State.ownHaltOut (s : State) : Bool := s.halted (Image.address s.image)

/-- The halt set is empty. -/
def State.noHalt (s : State) : Bool := s.control.haltSet == 0

/-! ### The fault unit's conditions -/

/-- The kind is pending (R173). -/
def FaultUnit.isPending (u : FaultUnit) (k : FaultKind) : Bool := u.pending.getLsbD k.place.val

/-- The policy in force for a kind (R171). -/
def FaultUnit.policyFor (u : FaultUnit) (k : FaultKind) : Policy := u.policy[k.place]

/-- The pending kinds whose severity is the one given, lowest number first. -/
def FaultUnit.pendingOf (u : FaultUnit) (v : Severity) : List FaultKind :=
  faultKinds.filter fun k => u.isPending k && (u.policyFor k).severity == v

/-- Some kind of severity HOLD is pending (R174): the park cause HOLD FAULT (R61). -/
def FaultUnit.holdPending (u : FaultUnit) : Bool := !(u.pendingOf .hold).isEmpty

/-- The lowest-numbered pending kind of severity HALT (R54, R176). -/
def FaultUnit.haltKind (u : FaultUnit) : Option FaultKind := (u.pendingOf .halt).head?

/-! ### Park (R61) -/

/-- Some park cause is present (R61). -/
def State.parkCause (s : State) : Bool := s.travel.lost || s.control.holdInput || s.faults.holdPending

/-- The station is parked: not RUNNING, or RUNNING with at least one cause present (R61). -/
def State.parked (s : State) : Bool := !s.running || s.parkCause

/-! ### Output lines -/

/-- The line-stop output (R64). -/
def State.lineStop (s : State) : Bool := !s.noHalt

/-- The tally queue as the station holds it: at a FEED or CHECK station it is empty (R187). Records that a SORT station
left in it stay out of sight there (notes/assumptions/12.md). -/
def State.tallyQueue (s : State) : List Tally :=
  match s.role with
  | some .feed => []
  | some .check => []
  | some .sort => s.sort.tally
  | none => s.sort.tally

/-- The attention output (R178, R56). -/
def State.attention (s : State) : Bool :=
  s.control.state == .lockout || s.faults.pending != 0 || !s.tallyQueue.isEmpty

/-- The clamp enable output (R123). -/
def State.clampEnable (s : State) : Bool :=
  s.role == some .feed && !s.parked && decide (s.feed.queue.length < Config.feedCapacity)

/-- A timer is running. -/
def Timer.isRunning : Timer → Bool
  | .running .. => true
  | .stopped => false

/-- The release output (R14, R125). -/
def State.release (s : State) : Bool := s.onLineAs .feed && s.feed.releaseTimer.isRunning

/-- The blade output (R14, R159). -/
def State.blade (s : State) : Bool := s.onLineAs .sort && s.sort.bladeTimer.isRunning

/-- The route output as its line shows it: none while it is held inactive (R170). -/
def State.routeLine (s : State) : Option Dest := if s.onLineAs .sort then some s.sort.route else none

/-- The discharge output of a stacker (R164, R165, R170). -/
def State.discharge (s : State) (c : StackerNo) : Bool := s.onLineAs .sort && (s.sort.stackers.get c).discharging

/-! ### Codes and bytes of the reports -/

/-- The code of the station state (R181). -/
def StationState.code : StationState → Nat
  | .unconfigured => 0
  | .configured => 1
  | .joining => 2
  | .running => 3
  | .lockout => 4

/-- The status byte (R181). -/
def State.statusByte (s : State) : Byte :=
  BitVec.ofNat 8 (s.control.state.code + 8 * s.parked.toNat + 16 * s.lineStop.toNat + 32 * s.attention.toNat
    + 64 * s.control.departure.toNat)

/-- The status byte of the transaction in progress, formed as select went active; with none held, select goes active
now (R181; notes/assumptions/23.md). -/
def State.selectByte (s : State) : Byte := s.spi.transaction.getD s.statusByte

/-- The byte that the part returns at place `n` of the last transaction: 00h beyond the response (R181). -/
def State.byteReturned (s : State) (n : Nat) : Byte := s.spi.returned.getD n 0

/-- The code of the lockout cause (R190). -/
def lockoutCode : Option LockoutCause → Nat
  | none => 0
  | some (.ownAddress k) => k
  | some .failedPresent => 8

/-- The code of the handshake (R190). -/
def Handshake.code : Handshake → Nat
  | .waiting => 0
  | .ready => 1
  | .clearing => 2

/-- The code of an eye state (R190). -/
def EyeState.code : EyeState → Nat
  | .normal => 0
  | .suspect => 1
  | .stuck => 2
  | .off => 3

/-- The code of the frame state (R190). -/
def FrameState.code : FrameState → Nat
  | .none => 0
  | .current => 1
  | .abandoned => 2

/-- The route code (R156). -/
def Dest.code : Dest → Nat
  | .stacker c => c.val
  | .runout => 4

/-- The code of a close reason (R190). -/
def CloseReason.code : CloseReason → Nat
  | .count => 1
  | .batch => 2
  | .profile => 3
  | .operator => 4

/-- The OWN HOLE stretch of a map (R141). -/
def ownHoleOf (map : List Stretch) : Option Stretch := map.find? fun x => x.kind == .ownHole

/-- The own hole (R141). -/
def State.ownHole (s : State) : Option Stretch := ownHoleOf s.feed.map

/-- The status byte of one eye (R190). Bit 3 has no content and is 0: DESIGN CHOICE (notes/assumptions/28.md). -/
def Eye.report (e : Eye) : Byte := BitVec.ofNat 8 (e.blocked.toNat + 2 * e.state.code + 16 * e.losses)

/-- The two status bytes of one stacker (R190). Bit 6 of the first has no content and is 0, and so are the stack-profile
bits while the stack profile is absent: DESIGN CHOICE (notes/assumptions/28.md). -/
def Stacker.report (k : Stacker) : List Byte :=
  [BitVec.ofNat 8 (k.stack.count + 128 * k.discharging.toNat),
   BitVec.ofNat 8 (k.stack.profile.getD 0 + 16 * k.pre.count + 64 * k.batchOwed.toNat
     + 128 * k.stack.profile.isSome.toNat)]

/-- The fault record's 6 bytes (R190). -/
def faultRecord : Option Occurrence → List Byte
  | none => [0, 0, 0, 0, 0, 0]
  | some o =>
    [BitVec.ofNat 8 o.kind.number, BitVec.ofNat 8 ((o.lane.map laneNumber).getD 0)] ++ tagBytes o.tag
      ++ wordBytes o.detail.toNat

/-- The tally record's 9 bytes (R190). Bits 2..7 of byte 4 have no content and are 0, and so is the profile byte of a
stack with no profile: DESIGN CHOICE (notes/assumptions/28.md). -/
def Tally.report (t : Tally) : List Byte :=
  [BitVec.ofNat 8 t.stacker.val, BitVec.ofNat 8 (t.profile.getD 0), BitVec.ofNat 8 t.count,
   BitVec.ofNat 8 t.reason.code, BitVec.ofNat 8 (t.mixed.toNat + 2 * t.unverified.toNat)]
  ++ tagBytes t.first ++ tagBytes t.last

/-- A list of bytes as given where the station's role has the block, and as many zeros where it has not (R186). -/
def whenPresent (present : Bool) (bytes : List Byte) : List Byte :=
  if present then bytes else bytes.map fun _ => 0

/-- Status word byte 03h (R190). Bits 6..7 have no content and are 0: DESIGN CHOICE (notes/assumptions/28.md). -/
def State.statusByte03 (s : State) : Byte :=
  let f := s.role == some .feed
  BitVec.ofNat 8 (s.port.offLine.toNat + 2 * (f && s.feed.batchLatch).toNat + 4 * (f && s.feed.ready).toNat
    + 8 * (if f then s.feed.handshake.code else 0) + 32 * s.faults.more.toNat)

/-- Status word bytes 19h..1Bh (R190): own hole state, frame state and head position. Bits 4..7 of the first have no
content and are 0: DESIGN CHOICE (notes/assumptions/28.md). -/
def State.holeReport (s : State) : List Byte :=
  let own :=
    match s.ownHole with
    | none => (0, 0)
    | some x => (if x.confirmed then 2 else 1, x.head)
  BitVec.ofNat 8 (own.1 + 4 * s.hole.frame.code) :: wordBytes (detail16 own.2).toNat

/-- The status word's 49 bytes (R190). Bits that the table gives no content are 0 (bits 6..7 of 03h, bit 3 of 11h..14h,
bits 4..7 of 19h, bit 6 of a stacker's first byte), and so are a stacker's stack-profile bits while its profile is
absent, and the first-halt reason and tag while that record is absent: DESIGN CHOICE, the tables are silent on them
(notes/assumptions/28.md). -/
def State.statusWord (s : State) : List Byte :=
  let f := s.role == some .feed
  let q := s.role == some .sort
  [BitVec.ofNat 8 s.control.state.code, BitVec.ofNat 8 (lockoutCode s.control.lockoutCause),
   bitsByte s.parked s.travel.lost s.control.holdInput s.faults.holdPending s.control.restartFlag
     s.control.departure s.spi.frozen s.travel.beltRun,
   s.statusByte03]
  ++ wordBytes s.control.haltSet.toNat
  ++ [BitVec.ofNat 8 ((s.control.firstHalt.map (·.address)).getD 0),
      BitVec.ofNat 8 ((s.control.firstHalt.map (·.reason)).getD 0)]
  ++ tagBytes (s.control.firstHalt.bind (·.tag))
  ++ wordBytes s.travel.count.toNat
  ++ [s.control.seq, BitVec.ofNat 8 s.port.failures, BitVec.ofNat 8 s.port.queue.length]
  ++ whenPresent s.tracks
      [BitVec.ofNat 8 s.tracker.entries.length,
       BitVec.ofNat 8 ((lanes.filter fun k => (s.tracker.orphans.get k).isSome).length
         + 16 * s.tracker.adopted.length)]
  ++ [s.eyes.q0.report, s.eyes.q1.report, s.eyes.q2.report, s.eyes.q3.report]
  ++ whenPresent f
      ([BitVec.ofNat 8 s.feed.queue.length, BitVec.ofNat 8 s.feed.map.length] ++ wordBytes s.feed.patience
        ++ s.holeReport)
  ++ whenPresent q
      ([BitVec.ofNat 8 s.sort.actions.length, BitVec.ofNat 8 s.sort.route.code]
        ++ s.sort.stackers.q0.report ++ s.sort.stackers.q1.report ++ s.sort.stackers.q2.report
        ++ s.sort.stackers.q3.report ++ wordBytes s.sort.runout ++ [BitVec.ofNat 8 s.sort.tally.length])
  ++ wordBytes s.faults.pending.toNat
  ++ faultRecord s.faults.first

/-- The fault report's 25 bytes (R186). -/
def State.faultReport (s : State) : List Byte :=
  wordBytes s.faults.pending.toNat ++ [BitVec.ofNat 8 s.faults.more.toNat] ++ faultRecord s.faults.first
    ++ s.faults.counts.toList.map (BitVec.ofNat 8)

end Sys2Proof.Machine
end

