-- ==== Sys2Proof/Machine/Framing.lean ====
section
/-! DEFINITION. The frame on the medium, bit by bit: the order of its parts (R31), bit stuffing (R32), the frame
check (R33), the receive framer, and which read-back mismatch is lost contention (R35). A bit is `false` for
dominant and `true` for recessive (R28). -/

namespace Sys2Proof.Machine

open Sys2Proof

/-- The low `n` bits of a number, most significant first (R31). -/
def bitsOf (n v : Nat) : List Bool := (List.range n).map fun i => v.testBit (n - 1 - i)

/-- The number whose bits are listed, most significant first (R31). -/
def numberOf (bits : List Bool) : Nat := bits.foldl (fun a b => 2 * a + b.toNat) 0

/-! ### The frame check (R33) -/

/-- One bit taken into the check register: shift toward bit 15, and on feedback invert bits 12, 5 and 0. -/
def checkStep (r : BitVec 16) (b : Bool) : BitVec 16 :=
  let feedback := b ^^ r.getLsbD 15
  if feedback then (r <<< 1) ^^^ 0x1021#16 else r <<< 1

/-- The frame check over bits in the order sent, from a register of all ones. -/
def frameCheck (bits : List Bool) : BitVec 16 := bits.foldl checkStep 0xFFFF#16

/-! ### Sending (R31, R32) -/

/-- The identifier, length and data bits of a frame, in the order sent: what the frame check covers. -/
def coveredBits (ident : Byte) (data : List Byte) : List Bool :=
  bitsOf 8 ident.toNat ++ bitsOf 4 data.length ++ data.flatMap (fun b => bitsOf 8 b.toNat)

/-- The start, identifier, length, data and check bits of a frame before stuffing. -/
def frameBody (ident : Byte) (data : List Byte) : List Bool :=
  false :: (coveredBits ident data ++ bitsOf 16 (frameCheck (coveredBits ident data)).toNat)

/-- Bit stuffing from a run of `run` bits at the level `last`: after five equal bits, a bit of the opposite level is
inserted, and it is the first bit of the next run. Each bit comes with a mark that says it was inserted. -/
def stuffFrom (last : Bool) (run : Nat) : List Bool → List (Bool × Bool)
  | [] => []
  | b :: rest =>
    let run' := if b = last then run + 1 else 1
    if run' = 5 then (b, false) :: (!b, true) :: stuffFrom (!b) 1 rest
    else (b, false) :: stuffFrom b run' rest

/-- The stuffed stretch of a frame with each bit's mark. -/
def stuffedStretch (ident : Byte) (data : List Byte) : List (Bool × Bool) :=
  stuffFrom true 0 (frameBody ident data)

/-- The end run: 8 recessive bits, not stuffed. -/
def endRun : List Bool := List.replicate 8 true

/-- The bits a sender drives for a frame, from the start bit to the last end-run bit. -/
def frameBits (ident : Byte) (data : List Byte) : List Bool :=
  (stuffedStretch ident data).map (·.1) ++ endRun

/-- The bit at place `pos` of a frame is a recessive identifier bit: the only bit whose read-back mismatch is lost
contention (R35). A stuff bit is not an identifier bit (R36). -/
def recessiveIdentifierBit (ident : Byte) (data : List Byte) (pos : Nat) : Bool :=
  let st := stuffedStretch ident data
  match st[pos]? with
  | none => false
  | some (level, inserted) =>
    let place := ((st.take pos).filter fun b => !b.2).length
    level && !inserted && decide (1 ≤ place) && decide (place ≤ 8)

/-! ### Receiving (R31, R32, R46) -/

/-- A frame as a receiver has read it. -/
structure Frame where
  ident : Byte
  data : List Byte
  check : BitVec 16
  deriving DecidableEq, Repr

/-- The frame check that goes with the frame's own identifier, length and data (R33). -/
def Frame.expectedCheck (f : Frame) : BitVec 16 := frameCheck (coveredBits f.ident f.data)

/-- What following a frame's bits has come to. -/
inductive Followed where
  /-- the bits do not begin with a start bit, or end before the frame does -/
  | unfinished
  /-- a bit breaks the bit rules; the identifier is present if its 8 bits had been read -/
  | broken (ident : Option Byte)
  /-- the frame has ended at its last end-run bit -/
  | ended (frame : Frame)
  deriving DecidableEq, Repr

/-- The number of data bytes that the bits read so far announce. -/
def announcedLength (got : List Bool) : Nat := numberOf ((got.drop 9).take 4)

/-- How many bits, without stuff bits, the stuffed stretch has in all, as far as the bits read so far tell. -/
def bitsExpected (got : List Bool) : Nat :=
  if got.length < 13 then 13 else 29 + 8 * announcedLength got

/-- The bytes in a bit list, each most significant bit first. -/
def bytesOf : Nat → List Bool → List Byte
  | 0, _ => []
  | n + 1, bits => BitVec.ofNat 8 (numberOf (bits.take 8)) :: bytesOf n (bits.drop 8)

/-- The identifier among the bits read so far, if its 8 bits have been read (R50). -/
def identRead (got : List Bool) : Option Byte :=
  if 9 ≤ got.length then some (BitVec.ofNat 8 (numberOf ((got.drop 1).take 8))) else none

/-- The frame in the bits of a whole stuffed stretch, stuff bits removed. -/
def frameRead (got : List Bool) : Frame where
  ident := BitVec.ofNat 8 (numberOf ((got.drop 1).take 8))
  data := bytesOf (announcedLength got) (got.drop 13)
  check := BitVec.ofNat 16 (numberOf (got.drop (13 + 8 * announcedLength got)))

/-- The end run: `left` recessive bits are still to come. A dominant bit breaks the bit rules. -/
def followEndRun (got : List Bool) : Nat → List Bool → Followed
  | 0, _ => .ended (frameRead got)
  | _ + 1, [] => .unfinished
  | n + 1, b :: rest => if b then followEndRun got n rest else .broken (identRead got)

/-- The stuffed stretch: `got` are the bits read so far without stuff bits, of which the last `run` bits on the
medium were at the level `last`. A bit that does not alternate after five equal ones, and a length field of 9..15 at
its last bit, break the bit rules. -/
def followStretch (got : List Bool) (last : Bool) (run : Nat) : List Bool → Followed
  | [] => .unfinished
  | b :: rest =>
    if run = 5 then
      if b = last then .broken (identRead got) else followStretch got b 1 rest
    else if got.length = bitsExpected got then
      followEndRun got 8 (b :: rest)
    else
      let got' := got ++ [b]
      if got'.length = 13 ∧ 8 < announcedLength got' then .broken (identRead got')
      else followStretch got' b (if b = last then run + 1 else 1) rest

/-- The bits of a frame from its start bit, followed to the frame's end or to the bit that breaks the bit rules. -/
def follow : List Bool → Followed
  | false :: rest => followStretch [false] false 1 rest
  | _ => .unfinished

end Sys2Proof.Machine
end

