-- ==== Sys2Proof/Machine/Ops.lean ====
section
/-! DEFINITION. The operations that several blocks ask of one owner: timers (R13), the sequence counter (R18), taking
a fault occurrence (R173), adding a frame to the transmit queue and withdrawing one (R40, R42), the halt set (R62,
R63), the own halt and its announcement (R65, R67), and the clear of the queue (R43). -/

namespace Sys2Proof.Machine

open Sys2Proof

/-! ### Timers (R13) -/

/-- A start or restart: running from its full length at the present time (R13). -/
def State.startTimer (s : State) (length : Nat) : Timer := .running length s.timeBase

/-- The time at which a timer's expiry is taken: no sooner than its length after its start (R13). -/
def Timer.dueAfter (t : Timer) (now : Nat) : Nat :=
  match t with
  | .running length start => max now (start + length)
  | .stopped => now

/-- The time base moved on to the moment a timer expires (R12, R13; notes/assumptions/3.md). -/
def State.atExpiryOf (s : State) (t : Timer) : State := { s with timeBase := t.dueAfter s.timeBase }

/-! ### Sequence counter (R18) -/

/-- A draw: the tag with the own address and the counter's value, and the counter advanced by one (R17, R18). -/
def State.draw (s : State) : Tag × State :=
  (⟨BitVec.ofNat 8 (Image.address s.image), s.control.seq⟩,
   { s with control := { s.control with seq := s.control.seq + 1 } })

/-! ### The sort unit at park begin (R160) -/

/-- Park begin at the sort unit: actions discarded, route output and last route decision at runout (R160). -/
def SortUnit.parkBegin (u : SortUnit) : SortUnit := { u with actions := [], route := .runout, lastRoute := .runout }

/-- What follows a change of the parked condition from unparked to parked between two states (R61, R160). -/
def followParkBegin (before after : State) : State :=
  if !before.parked && after.parked && after.role == some .sort then { after with sort := after.sort.parkBegin }
  else after

/-! ### Taking an occurrence, but for the halt request (R173 to R175) -/

/-- The fault unit's own part of an occurrence: count, pending, first-fault record and more-faults flag (R172, R173,
R175). -/
def FaultUnit.take (u : FaultUnit) (o : Occurrence) : FaultUnit :=
  let counted := { u with counts := u.counts.set o.kind.place (min 255 (u.counts[o.kind.place] + 1)) }
  if (u.policyFor o.kind).masked then counted
  else
    { counted with
      pending := u.pending ||| o.kind.bit
      first := if u.first.isNone then some o else u.first
      more := u.more || u.first.isSome }

/-- The occurrence makes the fault unit send a halt request (R176). -/
def FaultUnit.requestsHalt (u : FaultUnit) (k : FaultKind) : Bool :=
  !(u.policyFor k).masked && (u.policyFor k).severity == .halt

/-- An occurrence taken by R173 where a halt request would be taken as nothing (R65): the count, the pending set, the
record, and the park that HOLD brings. -/
def State.note (s : State) (o : Occurrence) : State :=
  followParkBegin s { s with faults := s.faults.take o }

/-! ### The transmit queue (R39, R40) -/

/-- The identifier of a frame of this station's (R34). -/
def State.identOf (s : State) (n : Notice) : Nat := identifier n.code (Image.address s.image)

/-- A frame at its place: after every frame whose identifier is not higher (R39). -/
def insertSlot (x : Slot) : List Slot → List Slot
  | [] => [x]
  | y :: rest => if y.notice.code ≤ x.notice.code then y :: insertSlot x rest else x :: y :: rest

/-- The last waiting frame, and the queue without it (R40). -/
def takeLastWaiting : List Slot → Option (Slot × List Slot)
  | [] => none
  | y :: rest =>
    match takeLastWaiting rest with
    | some (z, others) => some (z, y :: others)
    | none => if y.inSend then none else some (y, rest)

/-- A frame added to the queue: the queue after it, and the frame put out, if any (R40). -/
def putFrame (q : List Slot) (x : Slot) : List Slot × Option Slot :=
  if q.length < Config.queueCapacity then (insertSlot x q, none)
  else
    match takeLastWaiting q with
    | none => (q, some x)
    | some (y, others) => if x.notice.code < y.notice.code then (insertSlot x others, some y) else (q, some x)

/-- The map without the own hole (R147, R149, R150). -/
def withoutOwnHole (map : List Stretch) : List Stretch := map.filter fun x => x.kind != .ownHole

/-- The own hole removed from the map with its fit (R147, R149, R150). -/
def State.dropOwnHole (s : State) : State :=
  { s with feed := { s.feed with map := withoutOwnHole s.feed.map }, hole := { s.hole with fit := none } }

/-- The hole unit takes a discard report of its HOLE by its frame state (R144). -/
def State.holeDiscarded (s : State) : State :=
  match s.hole.frame with
  | .current =>
    { s.dropOwnHole with
      feed := { s.dropOwnHole.feed with patience := 0 }
      hole := { s.dropOwnHole.hole with frame := .none } }
  | .abandoned => { s with hole := { s.hole with frame := .none } }
  | .none => s

/-- The discard report of a frame put out of the queue, taken by the block that queued it (R40): the hole unit by
R144, every other block as nothing (R67, R93, R136). -/
def State.discardReport (s : State) (x : Slot) : State :=
  match x.notice with
  | .hole .. => s.holeDiscarded
  | .halt .. | .resume | .loss .. | .pass .. | .drop .. | .present .. => s

/-- The LINE BUS occurrence of a cause (R50). -/
def lineBus (cause ident : Nat) (tag : Option Tag) : Occurrence :=
  ⟨.lineBus, tag, none, BitVec.ofNat 16 (cause * 256 + ident)⟩

/-- A frame asked of the port (R40): the queue with it, the discard report of a frame put out taken by its owner, and
that frame itself, whose LINE BUS occurrence is still to be taken. An inactive port holds an empty queue (R29). -/
def State.put (s : State) (n : Notice) (age : Nat) : State × Option Slot :=
  if s.port.active then
    let r := putFrame s.port.queue ⟨n, age, false⟩
    let s' := { s with port := { s.port with queue := r.1 } }
    match r.2 with
    | none => (s', none)
    | some y => (s'.discardReport y, some y)
  else (s, none)

/-- The occurrence that a frame put out of the queue brings (R40, R50). -/
def State.putOutOccurrence (s : State) (y : Slot) : Occurrence := lineBus 6 (s.identOf y.notice) y.notice.tag?

/-- A frame added while the own halt is outstanding: a halt request that its overflow brings is taken as nothing
(R40, R65). -/
def State.addQuiet (s : State) (n : Notice) (age : Nat) : State :=
  match s.put n age with
  | (s', none) => s'
  | (s', some y) => s'.note (s'.putOutOccurrence y)

/-! ### The halt set (R62, R63) -/

/-- An address added to the halt set; the first-halt record is captured when the set becomes non-empty (R63). -/
def StationControl.addHalt (c : StationControl) (a reason : Nat) (tag : Option Tag) : StationControl :=
  { c with
    haltSet := c.haltSet ||| addressBit a
    firstHalt := if c.haltSet = 0 then some ⟨a, reason, tag⟩ else c.firstHalt }

/-- An address removed from the halt set; the first-halt record is re-armed when the set becomes empty (R63). -/
def StationControl.removeHalt (c : StationControl) (a : Nat) : StationControl :=
  { c with
    haltSet := c.haltSet &&& ~~~ addressBit a
    firstHalt := if c.haltSet &&& ~~~ addressBit a = 0 then none else c.firstHalt }

/-! ### Announcing (R67) -/

/-- The frame of an announced kind: a HALT carries the own-halt reason and tag (R65, R67). -/
def StationControl.announcement (c : StationControl) : Announced → Notice
  | .halt => .halt ((c.ownHalt.map (·.reason)).getD 0) (c.ownHalt.bind (·.tag))
  | .resume => .resume

/-- The announcement state's part of an announcement, and whether the frame is to be added now (R67). -/
def StationControl.announceStep (c : StationControl) (k : Announced) : StationControl × Bool :=
  match c.queued with
  | none => ({ c with queued := some k }, true)
  | some q => if q = k then ({ c with owed := none }, false) else ({ c with owed := some k }, false)

/-- An announcement while a halt request would be taken as nothing: the own halt stands, or the station is leaving
(R65, R67; notes/assumptions/17.md). -/
def State.announceQuiet (s : State) (k : Announced) : State :=
  let r := s.control.announceStep k
  let s' := { s with control := r.1 }
  if r.2 then s'.addQuiet (r.1.announcement k) 0 else s'

/-- Station control raises the own halt: reason and tag recorded, own address added, HALT announced (R65). -/
def State.raiseOwnHalt (s : State) (reason : Nat) (tag : Option Tag) : State :=
  State.announceQuiet
    { s with
      control := { s.control with ownHalt := some ⟨reason, tag⟩ }.addHalt (Image.address s.image) reason tag } .halt

/-- Station control takes a halt request of the fault unit: in RUNNING with the own halt not outstanding it raises the
own halt, else it takes the request as nothing (R65, R176). -/
def State.takeHaltRequest (s : State) (k : FaultKind) : State :=
  if s.running && !s.ownHaltOut then s.raiseOwnHalt k.number (s.faults.first.bind (·.tag)) else s

/-- An occurrence as the fault unit takes it, whole (R173). -/
def State.occur (s : State) (o : Occurrence) : State :=
  if s.faults.requestsHalt o.kind then (s.note o).takeHaltRequest o.kind else s.note o

/-- Occurrences taken one after the other, in the order given (R179). -/
def State.occurAll (s : State) (os : List Occurrence) : State := os.foldl State.occur s

/-- A frame added to the transmit queue by a block (R40). -/
def State.add (s : State) (n : Notice) (age : Nat) : State :=
  match s.put n age with
  | (s', none) => s'
  | (s', some y) => s'.occur (s'.putOutOccurrence y)

/-- Station control announces HALT or RESUME (R67). -/
def State.announce (s : State) (k : Announced) : State :=
  let r := s.control.announceStep k
  let s' := { s with control := r.1 }
  if r.2 then s'.add (r.1.announcement k) 0 else s'

/-- A re-sent HALT: added when neither part of the announcement state is occupied (R57, R58, R67). -/
def State.resendHalt (s : State) : State :=
  if s.ownHaltOut && s.control.queued.isNone && s.control.owed.isNone then s.announce .halt else s

/-! ### The line port -/

/-- The queue holds a HOLE of the station's (R39). -/
def holdsHole (q : List Slot) : Bool :=
  q.any fun x => match x.notice with
    | .hole .. => true
    | .halt .. | .resume | .loss .. | .pass .. | .drop .. | .present .. => false

/-- The queue without a waiting HOLE (R42). -/
def withoutWaitingHole (q : List Slot) : List Slot :=
  q.filter fun x => match x.notice with
    | .hole .. => x.inSend
    | .halt .. | .resume | .loss .. | .pass .. | .drop .. | .present .. => true

/-- The hole unit asks the port to withdraw its HOLE; the answer is `true` for withdrawn and `false` for in send
(R42). -/
def State.withdraw (s : State) : State × Bool :=
  let q := withoutWaitingHole s.port.queue
  ({ s with port := { s.port with queue := q } }, !holdsHole q)

/-- The clear of the transmit queue, which makes the port inactive (R43). -/
def State.clearPort (s : State) : State := { s with port := .inactive }

/-- The frame in send, if there is one (R39). -/
def LinePort.inSend (p : LinePort) : Option Slot := p.queue.find? (·.inSend)

/-- The frame in send returned to waiting in its slot (R35, R36). -/
def LinePort.backToWaiting (p : LinePort) : LinePort :=
  { p with queue := p.queue.map fun x => { x with inSend := false } }

/-- The slot ages after a travel advance of d mm (R44). -/
def LinePort.advance (p : LinePort) (d : Int) : LinePort :=
  { p with queue := p.queue.map fun x => if x.notice.aged then { x with age := addTravel x.age d } else x }

/-! ### Eyes that several blocks act on -/

/-- The lanes whose eye is NORMAL (R84, R110). -/
def State.normalLanes (s : State) : LaneSet := laneSetOf (lanes.filter fun k => (s.eyes.get k).state == .normal)

/-- A matched sighting on a lane (R101). -/
def Eye.matched (e : Eye) : Eye :=
  match e.state with
  | .normal => { e with losses := 0 }
  | .suspect => { e with state := .normal, losses := 0 }
  | .stuck => e
  | .off => e

/-- A matched sighting on a lane, at the eye unit (R101). -/
def State.matchedSighting (s : State) (k : Lane) : State :=
  { s with eyes := s.eyes.set k (s.eyes.get k).matched }

end Sys2Proof.Machine
end

