-- ==== Sys2Proof/Machine/Sort.lean ====
section
/-! DEFINITION. The sort unit (chapter 9): gap measurement, fold arithmetic, the route decision, the action list, the
stackers, the runout count and the tally queue; and the meanings of DISCHARGE_DONE and BLADE_PULSE_EXPIRY. A decision
is taken whole (R152): it answers the sort unit after it and the occurrences it reports, in order. -/

namespace Sys2Proof.Machine

open Sys2Proof

/-! ### Gap measurement (R153) -/

/-- The gap counter and the countdowns after a travel advance of d mm, without the actions performed (R153, R159). On
reverse travel every countdown changes by the same amount, which keeps the greatest within 32767. -/
def SortUnit.move (u : SortUnit) (d : Int) : SortUnit :=
  let greatest := u.actions.foldl (fun m a => max m a.countdown) (-32768)
  let rise := min (-d) (32767 - greatest)
  { u with
    gapCounter := addTravel u.gapCounter d
    actions :=
      if 0 < d then u.actions.map fun a => { a with countdown := max (-32768) (a.countdown - d) }
      else u.actions.map fun a => { a with countdown := a.countdown + rise } }

/-- The other eyes that are NORMAL or SUSPECT are clear: a leading edge on lane k is clean (R153). -/
def cleanEdge (eyes : Quad Eye) (k : Lane) : Bool :=
  lanes.all fun j =>
    j == k || !((eyes.get j).state == .normal || (eyes.get j).state == .suspect) || !(eyes.get j).blocked

/-- The sort unit takes a leading edge on lane k for its gap measurement (R153). -/
def SortUnit.leadingEdge (u : SortUnit) (eyes : Quad Eye) (k : Lane) : SortUnit :=
  if cleanEdge eyes k then { u with entryGap := u.gapCounter } else u

/-- The sort unit takes a trailing edge for its gap measurement (R153). -/
def SortUnit.trailingEdge (u : SortUnit) : SortUnit := { u with gapCounter := 0 }

/-! ### Actions (R158, R159) -/

/-- An action performed: the route output takes the code, or the blade pulse starts with the width given (R159). -/
def SortUnit.perform (u : SortUnit) (pulse : Timer) (a : ActionKind) : SortUnit :=
  match a with
  | .setRoute code => { u with route := code }
  | .fireBlade => { u with bladeTimer := pulse }

/-- Every action due is performed in list order and removed (R159). -/
def SortUnit.performDue (u : SortUnit) (pulse : Timer) : SortUnit :=
  let due := u.actions.filter fun a => decide (a.countdown ≤ 0)
  due.foldl (fun v a => v.perform pulse a.kind) { u with actions := u.actions.filter fun a => decide (0 < a.countdown) }

/-- The sort unit takes a travel advance (R153, R159). -/
def SortUnit.advance (u : SortUnit) (pulse : Timer) (d : Int) : SortUnit :=
  if 0 < d then (u.move d).performDue pulse else u.move d

/-- An action at its place: after every action whose countdown is not greater (R158). -/
def insertAction (x : Action) : List Action → List Action
  | [] => [x]
  | y :: rest => if y.countdown ≤ x.countdown then y :: insertAction x rest else x :: y :: rest

/-- The actions that need a place in the list: those not performed at once (R158). -/
def needPlaces (new : List Action) : List Action := new.filter fun a => a.countdown != 0

/-- The action list has room for a piece's actions (R158). -/
def SortUnit.hasRoom (u : SortUnit) (new : List Action) : Bool :=
  decide (u.actions.length + (needPlaces new).length ≤ Config.actionCapacity)

/-- A piece's actions placed: one whose countdown is 0 is performed, the others enter the list (R158). -/
def SortUnit.place (u : SortUnit) (pulse : Timer) (new : List Action) : SortUnit :=
  new.foldl
    (fun v a => if a.countdown = 0 then v.perform pulse a.kind else { v with actions := insertAction a v.actions }) u

/-! ### Fold arithmetic (R154, R155) -/

/-- The fold points of a program for a piece of length L (R154). -/
def foldPoints (p : FoldProgram) (l : Nat) : List Nat :=
  match p with
  | .none => []
  | .half => [l / 2]
  | .thirds => [l / 3, 2 * l / 3]

/-- The firing countdowns of a program (R154). -/
def firings (im : Image) (p : FoldProgram) (l lateness : Nat) : List Int :=
  (foldPoints p l).map fun f => (Image.bladeDistance im : Int) + f - l - Image.bladeLead im - lateness

/-- The greatest countdown among the FIRE BLADE actions of a list (R155). -/
def lastFiring (actions : List Action) : Option Int :=
  ((actions.filter fun a => a.kind == .fireBlade).map (·.countdown)).max?

/-- The outcome of the fold arithmetic: the piece's firings, or none where the fold is impossible, and the details of
the FOLD occurrences, in order. -/
structure FoldOutcome where
  firings : Option (List Int)
  details : List Nat
  deriving DecidableEq, Repr

/-- The program in force after the spacing stage, with whether THIRDS fell back to HALF (R154). -/
def spacingStage (im : Image) (p : FoldProgram) (l : Nat) : FoldProgram × Bool :=
  match p with
  | .thirds => if 2 * l / 3 - l / 3 < Image.bladeRecovery im then (.half, true) else (.thirds, false)
  | .half => (.half, false)
  | .none => (.none, false)

/-- The first firing clashes with the last blade firing in the list (R155). -/
def foldClash (im : Image) (actions : List Action) (new : List Int) : Bool :=
  match new.min?, lastFiring actions with
  | some a, some b => decide (a < b + Image.bladeRecovery im)
  | some _, none => false
  | none, _ => false

/-- The fold arithmetic of R154 with the clash test of R155. -/
def foldArithmetic (im : Image) (actions : List Action) (p : FoldProgram) (l lateness : Nat) : FoldOutcome :=
  let stage := spacingStage im p l
  let fs := firings im stage.1 l lateness
  let fellBack := if stage.2 then [2] else []
  if fs.any fun c => decide (c < 0) then ⟨none, fellBack ++ [1]⟩
  else if foldClash im actions fs then ⟨none, fellBack ++ [3]⟩
  else ⟨some fs, fellBack⟩

/-! ### Pieces (R152) -/

/-- A sighted or unverified piece as the tracker hands it on (R152). -/
structure SortPiece where
  piece : Piece
  sighted : Bool
  degraded : Bool
  lateness : Nat
  deriving DecidableEq, Repr

/-- The piece length: the measured length of a sighted piece whose degraded mark is no, else the nominal (R152). -/
def SortPiece.length (p : SortPiece) : Nat :=
  if p.sighted && !p.degraded then p.piece.measured.getD p.piece.nominal else p.piece.nominal

/-- The fold program of a piece (R154). -/
def SortPiece.program (p : SortPiece) (im : Image) : FoldProgram :=
  if p.sighted && !p.degraded then (Image.profile im p.piece.profile).fold else .none

/-- A FOLD occurrence (R154). -/
def foldFault (p : Piece) (detail : Nat) : Occurrence := ⟨.fold, some p.tag, none, BitVec.ofNat 16 detail⟩

/-- A ROUTE occurrence (R158). -/
def routeFault (p : Piece) (detail : Nat) : Occurrence := ⟨.route, some p.tag, none, BitVec.ofNat 16 detail⟩

/-! ### The route decision (R156, R157) -/

/-- The target count of a stack or pre-stack profile at this station (R161). -/
def targetOf (im : Image) (p : Option Nat) : Nat := (Image.profile im (p.getD 0)).target

/-- A DISCHARGING stacker's pre-stack is full (R163). -/
def Stacker.preFull (k : Stacker) (im : Image) : Bool :=
  decide (Config.preStackCapacity ≤ k.pre.count)
    || (k.pre.profile.isSome && decide (targetOf im k.pre.profile ≤ k.pre.count)) || k.batchOwed

/-- The pre-stack holds pieces of another profile (R156). -/
def Stacker.preOther (k : Stacker) (profile : Nat) : Bool := k.pre.count != 0 && k.pre.profile != some profile

/-- What the destination search of R156 finds: the destination, the piece's firings (none where it has none) and the
occurrences it reports, in order. -/
structure Search where
  dest : Dest
  firings : List Int
  faults : List Occurrence
  deriving DecidableEq, Repr

/-- Stages 1 to 4 of R156 give runout. -/
def runsOutEarly (im : Image) (parked : Bool) (p : Piece) : Bool :=
  let v := Image.profile im p.profile
  parked || p.flags.stray || !v.identified
    || (match v.stackClass with
        | .runout => true
        | .stacker c => decide (Image.stackerCount im ≤ c.val))
    || ((p.flags.short || p.flags.long) && v.reject)

/-- Stage 6 of R156, for a piece whose stack class is stacker c. A pre-stack that is both full and of another profile is
reported as full, with ROUTE detail 2 alone: DESIGN CHOICE, since R156 gives 2 for full and 3 for another profile and no
order of the two (notes/assumptions/24.md). -/
def stage6 (im : Image) (u : SortUnit) (p : Piece) (c : StackerNo) (fs : List Int) (faults : List Occurrence) : Search :=
  let k := u.stackers.get c
  if k.discharging && k.preFull im then ⟨.runout, fs, faults ++ [routeFault p 2]⟩
  else if k.discharging && k.preOther p.profile then ⟨.runout, fs, faults ++ [routeFault p 3]⟩
  else ⟨.stacker c, fs, faults⟩

/-- The destination of a piece (R156). The fold arithmetic is made at stage 5, so a piece that runs out before it has
no firings and reports no FOLD (notes/assumptions/15.md). -/
def SortUnit.destination (u : SortUnit) (im : Image) (parked : Bool) (p : SortPiece) : Search :=
  if runsOutEarly im parked p.piece then ⟨.runout, [], []⟩
  else
    let f := foldArithmetic im u.actions (p.program im) p.length p.lateness
    let faults := f.details.map (foldFault p.piece)
    match f.firings, (Image.profile im p.piece.profile).stackClass with
    | none, _ => ⟨.runout, [], faults⟩
    | some _, .runout => ⟨.runout, [], faults⟩
    | some fs, .stacker c => stage6 im u p.piece c fs faults

/-- The outcome of the comparison with the last route decision (R157): counted destination, last route decision,
mixed, and the SET ROUTE action, if any. -/
structure RouteOutcome where
  counted : Dest
  lastRoute : Dest
  mixed : Bool
  setRoute : List Action
  deriving DecidableEq, Repr

/-- The comparison of a destination with the last route decision, with the gap g (R157). -/
def compareRoute (im : Image) (parked : Bool) (last d : Dest) (g l lateness : Nat) : RouteOutcome :=
  if parked then ⟨d, last, false, []⟩
  else if d = last then ⟨d, last, false, []⟩
  else if Image.switchGap im ≤ g then
    ⟨d, d, false,
      [⟨.setRoute d, max 0 ((Image.diverter im : Int) - Image.switchGap im - l - lateness)⟩]⟩
  else ⟨last, last, true, []⟩

/-! ### The stackers (R162 to R166, R169) -/

/-- A piece counted on a stack or a pre-stack (R162 step 2). -/
def Stack.countPiece (k : Stack) (p : Piece) (mixed : Bool) : Stack where
  count := k.count + 1
  profile := if k.count = 0 then some p.profile else k.profile
  first := if k.count = 0 then some p.tag else k.first
  last := some p.tag
  mixed := k.mixed || mixed
  unverified := k.unverified || p.flags.unverified

/-- A tally record added at the end; from a full queue the oldest is removed first, with fault TALLY (R169). -/
def SortUnit.addTally (u : SortUnit) (t : Tally) : SortUnit × List Occurrence :=
  match u.tally with
  | [] => ({ u with tally := [t] }, [])
  | old :: rest =>
    if u.tally.length < Config.tallyCapacity then ({ u with tally := u.tally ++ [t] }, [])
    else ({ u with tally := rest ++ [t] }, [⟨.tally, old.first, none, BitVec.ofNat 16 old.count⟩])

/-- The tally record of stacker c's stack, closed with a reason (R164). -/
def Stacker.tallyOf (k : Stacker) (c : StackerNo) (reason : CloseReason) : Tally :=
  ⟨c, k.stack.profile, k.stack.count, reason, k.stack.mixed, k.stack.unverified, k.stack.first, k.stack.last⟩

/-- A close of stacker c (R164). -/
def SortUnit.close (u : SortUnit) (c : StackerNo) (reason : CloseReason) : SortUnit × List Occurrence :=
  let r := u.addTally ((u.stackers.get c).tallyOf c reason)
  ({ r.1 with stackers := r.1.stackers.set c ⟨true, .empty, .empty, false⟩ }, r.2)

/-- A piece counted on a DISCHARGING stacker joins its pre-stack; a mixed piece that finds the pre-stack full only
marks it (R163). -/
def Stacker.joinPre (k : Stacker) (im : Image) (p : Piece) (mixed : Bool) : Stacker :=
  if mixed && k.preFull im then { k with pre := { k.pre with mixed := true } }
  else { k with pre := k.pre.countPiece p mixed, batchOwed := k.batchOwed || p.flags.batchClose }

/-- A piece counted on a COLLECTING stacker that keeps its stack: count, then close by batch or count (R162 steps 2
and 3). -/
def SortUnit.countOn (u : SortUnit) (im : Image) (c : StackerNo) (p : Piece) (mixed : Bool) :
    SortUnit × List Occurrence :=
  let k := u.stackers.get c
  let st := k.stack.countPiece p mixed
  let u' := { u with stackers := u.stackers.set c { k with stack := st } }
  if p.flags.batchClose then u'.close c .batch
  else if targetOf im st.profile ≤ st.count then u'.close c .count
  else (u', [])

/-- A piece joined to the pre-stack of stacker c (R163). -/
def SortUnit.joinPre (u : SortUnit) (im : Image) (c : StackerNo) (p : Piece) (mixed : Bool) : SortUnit :=
  { u with stackers := u.stackers.set c ((u.stackers.get c).joinPre im p mixed) }

/-- A piece counted on stacker c (R162, R163). -/
def SortUnit.countPiece (u : SortUnit) (im : Image) (c : StackerNo) (p : Piece) (mixed : Bool) :
    SortUnit × List Occurrence :=
  let k := u.stackers.get c
  if k.discharging then (u.joinPre im c p mixed, [])
  else if k.stack.count != 0 && k.stack.profile != some p.profile && !mixed then
    let r := u.close c .profile
    (r.1.joinPre im c p mixed, r.2)
  else u.countOn im c p mixed

/-- A lost batch close acts on the stacker of the piece's stack class (R166). -/
def SortUnit.lostBatch (u : SortUnit) (im : Image) (p : Piece) : SortUnit × List Occurrence :=
  match (Image.profile im p.profile).stackClass with
  | .runout => (u, [])
  | .stacker c =>
    let k := u.stackers.get c
    if Image.stackerCount im ≤ c.val then (u, [])
    else if k.discharging then
      if k.pre.count = 0 then (u, [])
      else ({ u with stackers := u.stackers.set c { k with batchOwed := true } }, [])
    else if k.stack.count = 0 then (u, [])
    else u.close c .batch

/-- A piece counted on the runout (R168). -/
def SortUnit.countRunout (u : SortUnit) (im : Image) (p : Piece) : SortUnit × List Occurrence :=
  let u' := { u with runout := min 65535 (u.runout + 1) }
  if p.flags.batchClose then u'.lostBatch im p else (u', [])

/-- A piece counted on its counted destination (R158). -/
def SortUnit.count (u : SortUnit) (im : Image) (d : Dest) (p : Piece) (mixed : Bool) : SortUnit × List Occurrence :=
  match d with
  | .stacker c => u.countPiece im c p mixed
  | .runout => u.countRunout im p

/-- The blade actions of a piece: one for each firing when the counted destination is a stacker (R157). -/
def bladeActions (d : Dest) (fs : List Int) : List Action :=
  match d with
  | .stacker _ => fs.map fun c => ⟨.fireBlade, c⟩
  | .runout => []

/-- The decision of a sighted or unverified piece, whole (R152 to R158, R162 to R168): the sort unit after it and the
occurrences it reports, in order. Of the piece's own new actions with equal countdowns SET ROUTE stands first in the
list: DESIGN CHOICE, since R158 places them 'as a set' and gives no order within it (notes/assumptions/31.md). -/
def SortUnit.decide (u : SortUnit) (im : Image) (parked : Bool) (pulse : Timer) (p : SortPiece) :
    SortUnit × List Occurrence :=
  let g := if p.sighted then u.entryGap else 0
  let found := u.destination im parked p
  let r := compareRoute im parked u.lastRoute found.dest g p.length p.lateness
  let new := r.setRoute ++ bladeActions r.counted found.firings
  let mixedFault := if r.mixed then [routeFault p.piece 1] else []
  if u.hasRoom new then
    let placed := { u with lastRoute := r.lastRoute }.place pulse new
    let c := placed.count im r.counted p.piece r.mixed
    ({ c.1 with entryGap := 0 }, found.faults ++ mixedFault ++ c.2)
  else
    let refused := if r.mixed then [] else [routeFault p.piece 4]
    let c := u.count im u.lastRoute p.piece true
    ({ c.1 with entryGap := 0 }, found.faults ++ mixedFault ++ refused ++ c.2)

/-! ### The sort unit in the station -/

/-- The blade pulse started now (R14, R159). -/
def State.bladePulse (s : State) : Timer := s.startTimer (Image.bladeMs s.image)

/-- What a part of the sort unit's work has come to, put into the station: the unit first, then its occurrences, in
order, once the work is whole (R152). -/
def State.withSort (s : State) (r : SortUnit × List Occurrence) : State := { s with sort := r.1 }.occurAll r.2

/-- The sort unit takes a piece, in JOINING and RUNNING (R152). -/
def State.sortPiece (s : State) (p : SortPiece) : State :=
  if s.onLineAs .sort then s.withSort (s.sort.decide s.image s.parked s.bladePulse p) else s

/-- The sort unit takes a lost batch close, in JOINING and RUNNING (R152, R166). -/
def State.lostBatchClose (s : State) (p : Piece) : State :=
  if s.onLineAs .sort then s.withSort (s.sort.lostBatch s.image p) else s

/-- What a discharge-done does to the sort unit, the stacker being DISCHARGING (R165). -/
def SortUnit.dischargeDone (u : SortUnit) (im : Image) (c : StackerNo) : SortUnit × List Occurrence :=
  let k := u.stackers.get c
  let u' := { u with stackers := u.stackers.set c ⟨false, k.pre, .empty, false⟩ }
  if k.batchOwed then if k.pre.count = 0 then (u', []) else u'.close c .batch
  else if k.pre.count ≠ 0 ∧ targetOf im k.pre.profile ≤ k.pre.count then u'.close c .count
  else (u', [])

/-- DISCHARGE_DONE (R165). -/
def execDischargeDone (c : StackerNo) (s : State) : Host.Outcome State Fault Refusal :=
  if s.onLineAs .sort && (s.sort.stackers.get c).discharging then
    .next (s.withSort (s.sort.dischargeDone s.image c))
  else .next s

/-- BLADE_PULSE_EXPIRY (R14): the blade output goes inactive. -/
def execBladePulseExpiry (s : State) : Host.Outcome State Fault Refusal :=
  if s.sort.bladeTimer.isRunning then
    let s' := s.atExpiryOf s.sort.bladeTimer
    .next { s' with sort := { s'.sort with bladeTimer := .stopped } }
  else .next s

end Sys2Proof.Machine
end

