-- ==== Sys2Proof/Machine/Tracker.lean ====
section
/-! DEFINITION. The tracker (chapters 5 and 6): the expectation list, arrival windows, the receive order of DROP and
PASS, received LOSS, leading and trailing edges, passages, orphans and strays. -/

namespace Sys2Proof.Machine

open Sys2Proof

/-! ### The expectation list (R70 to R72) -/

/-- Entry `a` stands before entry `b` or at the same place: by remaining distance, and among equals by placing. -/
def Entry.before (a b : Entry) : Bool :=
  decide (a.remaining < b.remaining) || (a.remaining == b.remaining && decide (a.placing ≤ b.placing))

/-- An entry at its place in list order (R72). -/
def insertEntry (x : Entry) : List Entry → List Entry
  | [] => [x]
  | y :: rest => if y.before x then y :: insertEntry x rest else x :: y :: rest

/-- The entries in list order: saturation may bring entries to one distance, which then stand by placing (R72). -/
def orderEntries (l : List Entry) : List Entry := l.foldr insertEntry []

/-- An entry with the newest placing put in the list (R72). -/
def Tracker.insert (t : Tracker) (e : Entry) : Tracker :=
  { t with entries := insertEntry { e with placing := t.nextPlacing } t.entries, nextPlacing := t.nextPlacing + 1 }

/-- The entry that carries a tag (R71). -/
def Tracker.find (t : Tracker) (tag : Tag) : Option Entry := t.entries.find? fun e => e.piece.tag == tag

/-- The list without one entry (R72). -/
def Tracker.remove (t : Tracker) (e : Entry) : Tracker := { t with entries := t.entries.erase e }

/-- The AWAITED entry is in window (R82). -/
def Entry.inWindow (e : Entry) : Bool :=
  e.passage.isNone && decide (-(e.late : Int) ≤ e.remaining) && decide (e.remaining ≤ e.early)

/-- The AWAITED entry closes at a forward advance (R84). -/
def Entry.closes (e : Entry) : Bool := e.passage.isNone && decide (e.remaining < -(e.late : Int))

/-- The candidate for lane k: the first AWAITED entry in list order with k in its mask that is in window, or, while
ENCODER LOST holds, whether it is in window or not (R82, R90). -/
def Tracker.candidate (t : Tracker) (lost : Bool) (k : Lane) : Option Entry :=
  t.entries.find? fun e => e.passage.isNone && hasLane e.piece.mask k && (lost || e.inWindow)

/-! ### Distances on a travel advance (R83, R108, R114) -/

/-- A passage's travel on an advance; a travel that has reached 65535 keeps that value until the passage ends (R108). -/
def Passage.advance (p : Passage) (d : Int) : Passage :=
  { p with travel := if 65535 ≤ p.travel then p.travel else addTravel p.travel d }

/-- An entry's remaining distance and passage on an advance (R83, R108). -/
def Entry.advance (e : Entry) (d : Int) : Entry :=
  { e with remaining := sat16 (e.remaining - d), passage := e.passage.map (·.advance d) }

/-- An orphan on an advance (R114). -/
def Orphan.advance (o : Orphan) (d : Int) : Orphan :=
  { o with travel := addTravel o.travel d, clear := o.clear.map fun c => { c with since := addTravel c.since d } }

/-- Every distance the tracker holds, on an advance of d mm. -/
def Tracker.advance (t : Tracker) (d : Int) : Tracker :=
  { t with
    entries := orderEntries (t.entries.map (·.advance d))
    orphans := t.orphans.mapAt fun _ o => o.map (·.advance d)
    adopted := t.adopted.map fun a => { a with passage := a.passage.advance d } }

/-- At the beginning of ENCODER LOST every passage, adopted passage and orphan is marked degraded (R108, R114). -/
def Tracker.degrade (t : Tracker) : Tracker :=
  { t with
    entries := t.entries.map fun e => { e with passage := e.passage.map fun p => { p with degraded := true } }
    orphans := t.orphans.mapAt fun _ o => o.map fun x => { x with degraded := true }
    adopted := t.adopted.map fun a => { a with passage := { a.passage with degraded := true } } }

/-! ### Passage end (R110 to R112, R118) -/

/-- The PASS of a piece (R86, R111): length as given; age and stale flag are written at each attempt. -/
def passOf (p : Piece) (length : Nat) : Notice := .pass p.tag p.profile p.mask p.flags length ⟨0, false⟩

/-- A measured piece handed on: a PASS at a CHECK station, a sighted piece at a SORT station (R111, R112, R118).
`since` is the travel since the passage's last trailing edge. -/
def State.handOn (s : State) (p : Piece) (degraded : Bool) (since : Nat) : State :=
  match s.role with
  | some .check => s.add (passOf p (p.measured.getD 0)) since
  | some .sort => s.sortPiece ⟨p, true, degraded, since⟩
  | some .feed => s
  | none => s

/-- The lanes of the mask whose eyes are NORMAL and that the passage has not seen (R110). -/
def State.unseen (s : State) (mask seen : LaneSet) : LaneSet := mask &&& s.normalLanes &&& ~~~ seen

/-- What the length check of R110 finds: short and long. -/
def lengthCheck (im : Image) (profile measured : Nat) : Bool × Bool :=
  let v := Image.profile im profile
  if v.identified then
    (decide (measured + v.tolerance < v.nominal), decide (v.nominal + v.tolerance < measured))
  else (false, false)

/-- A passage of an expectation entry ends; the entry has left the list (R110). -/
def State.passageEnd (s : State) (p : Piece) (g : Passage) (since : Nat) : State :=
  let unseen := s.unseen p.mask g.seen
  let found := if g.degraded || g.stuck then (false, false) else lengthCheck s.image p.profile g.travel
  let p' : Piece :=
    { p with
      measured := some g.travel
      flags := { p.flags with
        partialSight := p.flags.partialSight || unseen != 0
        short := p.flags.short || found.1
        long := p.flags.long || found.2 || g.stuck } }
  let s1 :=
    if unseen != 0 then s.occur ⟨.partialSight, some p.tag, soleLane unseen, BitVec.ofNat 16 unseen.toNat⟩ else s
  let s2 :=
    if found.1 || found.2 then s1.occur ⟨.length, some p.tag, soleLane p.mask, BitVec.ofNat 16 g.travel⟩ else s1
  s2.handOn p' g.degraded since

/-- A stray's passage ends (R118). -/
def State.strayEnd (s : State) (p : Piece) (g : Passage) (since : Nat) : State :=
  s.handOn { p with measured := some g.travel, flags := { p.flags with long := p.flags.long || g.stuck } }
    g.degraded since

/-! ### Orphans (R114 to R117) -/

/-- The orphans that stand on the lanes of a list. -/
def orphansOn (os : Quad (Option Orphan)) (ks : List Lane) : List Orphan := ks.filterMap fun k => os.get k

/-- The orphan records of the lanes removed. -/
def clearOrphans (os : Quad (Option Orphan)) (ks : List Lane) : Quad (Option Orphan) :=
  os.mapAt fun k o => if ks.contains k then none else o

/-- Of the lanes given, the one whose orphan has the greatest t, the lowest lane among equals (R115, R117). -/
def firstOrphan (os : Quad (Option Orphan)) (ok : Lane → Orphan → Bool) : Option (Lane × Orphan) :=
  lanes.foldl
    (fun best k =>
      match os.get k with
      | none => best
      | some o =>
        if ok k o then
          match best with
          | none => some (k, o)
          | some (j, x) => if x.travel < o.travel then some (k, o) else some (j, x)
        else best) none

/-- The lanes among `within` whose orphan's t lies within the skew of t1 (R115, R117). -/
def orphansNear (os : Quad (Option Orphan)) (within : LaneSet) (skew t1 : Nat) : List Lane :=
  lanes.filter fun k =>
    hasLane within k &&
      match os.get k with
      | none => false
      | some o => decide (o.travel ≤ t1 + skew) && decide (t1 ≤ o.travel + skew)

/-- The lanes of a list whose orphan is still blocked. -/
def blockedOrphans (os : Quad (Option Orphan)) (ks : List Lane) : List Lane :=
  ks.filter fun k =>
    match os.get k with
    | none => false
    | some o => o.clear.isNone

/-- The passage that orphans form, t1 being the travel of the first of them (R116). -/
def passageOf (os : Quad (Option Orphan)) (ks : List Lane) (t1 : Nat) : Passage where
  seen := laneSetOf ks
  blocked := laneSetOf (blockedOrphans os ks)
  travel := t1
  stuck := (orphansOn os ks).any (·.stuck)
  degraded := (orphansOn os ks).any (·.degraded)

/-- The measured length of a passage formed of clear orphans: the greatest t1 - t + m (R116). -/
def clearLength (os : List Orphan) (t1 : Nat) : Nat :=
  satU16 (os.foldl (fun m o => max m ((t1 : Int) - o.travel + (o.clear.map (·.measured)).getD 0)) 0)

/-- The least travel since a trailing edge among clear orphans (R116). -/
def leastSince (os : List Orphan) : Nat := ((os.filterMap fun o => o.clear.map (·.since)).min?).getD 0

/-- The record of a stray on the lanes given (R117). -/
def strayPiece (im : Image) (tag : Tag) (mask : LaneSet) (long : Bool) : Piece :=
  ⟨tag, 0, mask, (Image.profileZero im).nominal, none, { Flags.none with stray := true, long := long }⟩

/-- The orphan on lane k is adopted as a stray, with the orphans within the skew merged into it (R117, R118). -/
def State.adopt (s : State) (k : Lane) (o : Orphan) : State :=
  let os := s.tracker.orphans
  let t := (s.draw).1
  let ks := lanes.filter fun j => j == k || (orphansNear os 15#4 (Image.skew s.image) o.travel).contains j
  let g := passageOf os ks o.travel
  let p := strayPiece s.image t g.seen g.stuck
  let s1 := (s.draw).2.occur ⟨.stray, some t, some k, BitVec.ofNat 16 o.travel⟩
  let s2 := { s1 with tracker := { s1.tracker with orphans := clearOrphans s1.tracker.orphans ks } }
  if g.blocked = 0 then
    s2.strayEnd p { g with travel := clearLength (orphansOn os ks) o.travel } (leastSince (orphansOn os ks))
  else { s2 with tracker := { s2.tracker with adopted := s2.tracker.adopted ++ [⟨p, g⟩] } }

/-- Orphans past the grace are adopted one after another, at most `n` times: greatest t first, and among equals
lowest lane first (R117). -/
def State.adoptPastGrace (s : State) : Nat → State
  | 0 => s
  | n + 1 =>
    match firstOrphan s.tracker.orphans fun _ o => decide (Image.grace s.image < o.travel) with
    | none => s
    | some (k, o) => (s.adopt k o).adoptPastGrace n

/-! ### Edges at CHECK and SORT stations (R103 to R109) -/

/-- The passing entry that a leading edge on lane k joins: the first in list order (R104). -/
def Tracker.joinable (t : Tracker) (skew : Nat) (k : Lane) : Option Entry :=
  t.entries.find? fun e =>
    match e.passage with
    | none => false
    | some g => hasLane e.piece.mask k && !hasLane g.seen k && decide (g.travel ≤ skew)

/-- One entry replaced by another at its place (R72, Change of state). -/
def Tracker.replace (t : Tracker) (e e' : Entry) : Tracker :=
  { t with entries := t.entries.map fun x => if x = e then e' else x }

/-- The edge on lane k joins the passage `g` of entry `e` (R104). -/
def State.joinPassage (s : State) (e : Entry) (g : Passage) (k : Lane) : State :=
  let g' := { g with seen := addLane g.seen k, blocked := addLane g.blocked k }
  { s with tracker := s.tracker.replace e { e with passage := some g' } }.matchedSighting k

/-- The edge on lane k matches the candidate `e` (R105). -/
def State.matchEntry (s : State) (e : Entry) (k : Lane) : State :=
  let g : Passage := ⟨laneBit k, laneBit k, 0, s.travel.lost, false⟩
  { s with tracker := s.tracker.replace e { e with passage := some g } }.matchedSighting k

/-- The edge on lane k makes an orphan; a clear orphan already there is first adopted (R106). -/
def State.makeOrphan (s : State) (k : Lane) : State :=
  let s1 :=
    match s.tracker.orphans.get k with
    | none => s
    | some o => s.adopt k o
  { s1 with
    tracker := { s1.tracker with orphans := s1.tracker.orphans.set k (some ⟨0, none, false, s.travel.lost⟩) } }

/-- The tracker takes a leading edge on lane k in RUNNING: join, match or orphan, the first that applies (R103). -/
def State.trackLeading (s : State) (k : Lane) : State :=
  match s.tracker.joinable (Image.skew s.image) k with
  | some e =>
    match e.passage with
    | some g => s.joinPassage e g k
    | none => s
  | none =>
    match s.tracker.candidate s.travel.lost k with
    | some e => s.matchEntry e k
    | none => s.makeOrphan k

/-- The passing entry whose blocked set holds lane k (R109). -/
def Tracker.blockedEntry (t : Tracker) (k : Lane) : Option (Entry × Passage) :=
  t.entries.findSome? fun e =>
    match e.passage with
    | none => none
    | some g => if hasLane g.blocked k then some (e, g) else none

/-- The adopted passage whose blocked set holds lane k (R109). -/
def Tracker.blockedAdopted (t : Tracker) (k : Lane) : Option Adopted :=
  t.adopted.find? fun a => hasLane a.passage.blocked k

/-- Lane k leaves the blocked set of an entry's passage, which may end it (R109, R113). -/
def State.unblockEntry (s : State) (e : Entry) (g : Passage) : State :=
  if g.blocked = 0 then { s with tracker := s.tracker.remove e }.passageEnd e.piece g 0
  else { s with tracker := s.tracker.replace e { e with passage := some g } }

/-- Lane k leaves the blocked set of an adopted passage, which may end it (R109, R113). -/
def State.unblockAdopted (s : State) (a : Adopted) (g : Passage) : State :=
  if g.blocked = 0 then
    { s with tracker := { s.tracker with adopted := s.tracker.adopted.erase a } }.strayEnd a.piece g 0
  else
    { s with
      tracker := { s.tracker with
        adopted := s.tracker.adopted.map fun x => if x = a then { a with passage := g } else x } }

/-- A blocked orphan becomes clear, at its trailing edge or because its eye has become STUCK (R109, R113). -/
def Orphan.goClear (o : Orphan) (stuck : Bool) : Orphan :=
  match o.clear with
  | none => { o with clear := some ⟨o.travel, 0⟩, stuck := o.stuck || stuck }
  | some _ => o

/-- Lane k leaves the one record whose blocked lanes hold it: a passage, an adopted passage or a blocked orphan. With
`stuck` the stuck mark is set as well (R109, R113). -/
def State.unblock (s : State) (k : Lane) (stuck : Bool) : State :=
  let less (g : Passage) : Passage := { g with blocked := dropLane g.blocked k, stuck := g.stuck || stuck }
  match s.tracker.blockedEntry k with
  | some (e, g) => s.unblockEntry e (less g)
  | none =>
    match s.tracker.blockedAdopted k with
    | some a => s.unblockAdopted a (less a.passage)
    | none =>
      { s with
        tracker := { s.tracker with
          orphans := s.tracker.orphans.set k ((s.tracker.orphans.get k).map (·.goClear stuck)) } }

/-- The tag of the entry or adopted passage whose blocked set holds lane k (R98). -/
def Tracker.blockedTag (t : Tracker) (k : Lane) : Option Tag :=
  match t.blockedEntry k with
  | some (e, _) => some e.piece.tag
  | none => (t.blockedAdopted k).map (·.piece.tag)

/-! ### Window closing (R84 to R87) -/

/-- The eye of a lane takes a lost close's word: a NORMAL eye's consecutive-loss count adds one, and reaching the dark
count makes it SUSPECT with fault EYE SILENT (R100). -/
def State.countLoss (s : State) (tag : Tag) (k : Lane) : State :=
  let e := s.eyes.get k
  if e.state = .normal then
    let n := min 15 (e.losses + 1)
    let dark := Image.darkCount s.image
    if dark ≠ 0 ∧ n = dark then
      { s with eyes := s.eyes.set k { e with losses := n, state := .suspect } }.occur
        ⟨.eyeSilent, some tag, some k, BitVec.ofNat 16 n⟩
    else { s with eyes := s.eyes.set k { e with losses := n } }
  else s

/-- A lost close (R85). -/
def State.closeLost (s : State) (e : Entry) : State :=
  let p := e.piece
  let s1 := { s with tracker := s.tracker.remove e }.add (.loss p.tag p.mask p.flags.batchClose) 0
  let s2 := s1.occur ⟨.lost, some p.tag, soleLane p.mask, detail16 e.remaining⟩
  let s3 := (laneList p.mask).foldl (fun t k => t.countLoss p.tag k) s2
  if p.flags.batchClose then s3.lostBatchClose p else s3

/-- An unverified pass (R86 at a CHECK station, R87 at a SORT station). -/
def State.passUnverified (s : State) (e : Entry) : State :=
  let s1 := { s with tracker := s.tracker.remove e }
  let p : Piece := { e.piece with flags := { e.piece.flags with unverified := true } }
  match s.role with
  | some .check => s1.add (passOf p p.nominal) e.late
  | some .sort => s1.sortPiece ⟨{ p with measured := none }, false, false, 0⟩
  | some .feed => s1
  | none => s1

/-- An entry closes by the path chosen at the close (R84). -/
def State.closeEntry (s : State) (e : Entry) : State :=
  if s.running && lanesMeet e.piece.mask s.normalLanes then s.closeLost e else s.passUnverified e

/-- The entries that close at a forward advance close one after another in list order (R84). -/
def State.closeWindows (s : State) : State :=
  (s.tracker.entries.filter Entry.closes).foldl State.closeEntry s

/-! ### Received notices (R73 to R80, R91) -/

/-- A PEER occurrence of the tracker, the feed unit or the hole unit (R74, R145). -/
def peerFault (cause ident : Nat) (tag : Option Tag) : Occurrence :=
  ⟨.peer, tag, none, BitVec.ofNat 16 (cause * 256 + ident)⟩

/-- The tag of a PEER occurrence: the notice's when its origin is 1..15 (R74). -/
def peerTag (t : Tag) : Option Tag := if t.origin ≠ 0 ∧ t.origin.toNat ≤ 15 then some t else none

/-- The PEER cause that the field check of a DROP or PASS finds, if any (R74). -/
def fieldCause (mask : LaneSet) (tag : Tag) (profile nominal : Nat) : Option Nat :=
  if mask = 0 then some 8
  else if tag.origin = 0 ∨ 15 < profile ∨ Config.maxNominal < nominal then some 9
  else none

/-- What a DROP or PASS, past the field check, brings to the receive order (R75, R76): the record it would build, the
initial remaining distance and the tolerances it would give, and its stale flag. -/
structure Announcement where
  piece : Piece
  initial : Int
  early : Nat
  late : Nat
  stale : Bool
  deriving DecidableEq, Repr

/-- A tolerance: the fixed part and the per-mille part of the offset, held at 2047 (R76). -/
def tolerance (fixed perMille : Nat) (offset : Int) : Nat :=
  min Config.maxTolerance (fixed + ceilDiv (offset.toNat * perMille) 1000)

/-- What a DROP with a reduced mask brings (R22, R27, R75). -/
def dropAnnounces (im : Image) (o : Int) (t : Tag) (p : Nat) (mask : LaneSet) (batch : Bool) (nominal : Nat)
    (st : Stamp) : Announcement where
  piece := ⟨t, p, mask, nominal, none, { Flags.none with batchClose := batch }⟩
  initial := sat16 (o - st.age)
  early := tolerance (Image.earlyFixed im) (Image.earlyPerMille im) o
  late := tolerance (Image.lateFixed im) (Image.latePerMille im) o
  stale := st.stale

/-- What a PASS with a reduced mask brings (R22, R27, R75). -/
def passAnnounces (im : Image) (o : Int) (t : Tag) (p : Nat) (mask : LaneSet) (f : Flags) (length : Nat)
    (st : Stamp) : Announcement where
  piece := ⟨t, p, mask, (Image.profile im p).nominal, if f.unverified then none else some length, f⟩
  initial := sat16 (o - length - st.age)
  early := tolerance (Image.earlyFixed im) (Image.earlyPerMille im) o
  late := tolerance (Image.lateFixed im) (Image.latePerMille im) o
  stale := st.stale

/-- The fault of a notice that the receive order discards (R80). -/
def Announcement.fault (a : Announcement) (k : FaultKind) : Occurrence :=
  ⟨k, some a.piece.tag, soleLane a.piece.mask, detail16 a.initial⟩

/-- The entry a notice gives; its placing is set where it takes its place (R70, R72). -/
def Announcement.entry (a : Announcement) (g : Option Passage) : Entry := ⟨a.piece, a.initial, a.early, a.late, g, 0⟩

/-- A refresh of an AWAITED entry: it leaves its place and is placed anew (R78). -/
def State.refresh (s : State) (e : Entry) (a : Announcement) : State :=
  { s with tracker := (s.tracker.remove e).insert (a.entry none) }

/-- The orphan on lane k passes the claim test (R115). -/
def Announcement.passes (a : Announcement) (k : Lane) (o : Orphan) : Bool :=
  hasLane a.piece.mask k && decide (-(a.late : Int) ≤ a.initial + o.travel)
    && decide (a.initial + o.travel ≤ a.early)

/-- The lanes of the orphans a notice claims, and t of the first claimed one; none where it claims nothing (R115). -/
def State.claim (s : State) (a : Announcement) : Option (List Lane × Nat) :=
  match firstOrphan s.tracker.orphans a.passes with
  | none => none
  | some (k, o) =>
    some (lanes.filter fun j =>
        j == k || (orphansNear s.tracker.orphans a.piece.mask (Image.skew s.image) o.travel).contains j, o.travel)

/-- The claimed orphans leave the tracker, each with a matched sighting on its lane (R101, R116). -/
def State.takeOrphans (s : State) (ks : List Lane) : State :=
  ks.foldl State.matchedSighting
    { s with tracker := { s.tracker with orphans := clearOrphans s.tracker.orphans ks } }

/-- The outcome of a claim (R79, R116). Where the list is full and an orphan still blocked, the notice is discarded with
LIST FULL, the orphans stay, and their lanes have no matched sighting: DESIGN CHOICE, since R79 names only the discard,
the fault and the orphans kept, and R101 and R116 give the sighting 'at the claim' (notes/assumptions/29.md). -/
def State.claimed (s : State) (a : Announcement) (ks : List Lane) (t1 : Nat) : State :=
  let os := s.tracker.orphans
  let g := passageOf os ks t1
  if g.blocked = 0 then
    (s.takeOrphans ks).passageEnd a.piece { g with travel := clearLength (orphansOn os ks) t1 }
      (leastSince (orphansOn os ks))
  else if s.tracker.entries.length < Config.listCapacity then
    let s1 := s.takeOrphans ks
    { s1 with tracker := s1.tracker.insert (a.entry (some g)) }
  else s.occur (a.fault .listFull)

/-- Steps 4 to 6 of the receive order: late, full, insert (R77). -/
def State.receiveLate (s : State) (a : Announcement) : State :=
  if a.initial < -(a.late : Int) then s.occur (a.fault .lateNotice)
  else if s.tracker.entries.length < Config.listCapacity then
    { s with tracker := s.tracker.insert (a.entry none) }
  else s.occur (a.fault .listFull)

/-- The receive order (R77). -/
def State.receiveOrder (s : State) (a : Announcement) : State :=
  if a.stale then s.occur (a.fault .lateNotice)
  else
    match s.tracker.find a.piece.tag with
    | some e => if e.passage.isNone then s.refresh e a else s
    | none =>
      match s.claim a with
      | some (ks, t1) => s.claimed a ks t1
      | none => s.receiveLate a

/-- The tracker takes a DROP, with its sender's offset and its identifier, in JOINING and RUNNING (R73, R74). -/
def State.trackDrop (s : State) (ident : Nat) (o : Int) (t : Tag) (p : Nat) (m : LaneSet) (batch : Bool)
    (nominal : Nat) (st : Stamp) : State :=
  let mask := m &&& Image.lanes s.image
  match fieldCause mask t p nominal with
  | some c => s.occur (peerFault c ident (peerTag t))
  | none => s.receiveOrder (dropAnnounces s.image o t p mask batch nominal st)

/-- The tracker takes a PASS, with its sender's offset and its identifier, in JOINING and RUNNING (R73, R74). -/
def State.trackPass (s : State) (ident : Nat) (o : Int) (t : Tag) (p : Nat) (m : LaneSet) (f : Flags) (length : Nat)
    (st : Stamp) : State :=
  let mask := m &&& Image.lanes s.image
  match fieldCause mask t p 0 with
  | some c => s.occur (peerFault c ident (peerTag t))
  | none => s.receiveOrder (passAnnounces s.image o t p mask f length st)

/-- The tracker takes a LOSS: the entry with its tag is removed, and a batch close goes to the sort unit (R91, R92). -/
def State.trackLoss (s : State) (t : Tag) (batch : Bool) : State :=
  match s.tracker.find t with
  | none => s
  | some e =>
    let s1 := { s with tracker := s.tracker.remove e }
    if batch then s1.lostBatchClose e.piece else s1

end Sys2Proof.Machine
end

