-- ==== Sys2Proof/Machine/Feed.lean ====
section
/-! DEFINITION. The feed unit and the hole unit (chapters 7 and 8): the feed queue and handshake, the belt map, the
drop test and the drop, patience, and hole requests; and the meanings of the feed position's own events. -/

namespace Sys2Proof.Machine

open Sys2Proof

/-! ### The belt map (R126, R128) -/

/-- The tail of a stretch, worked out in full (R126). -/
def Stretch.tail (x : Stretch) : Int := x.head + x.length

/-- Two closed intervals meet (R126). -/
def intervalsMeet (a b c e : Int) : Bool := decide (a ≤ e) && decide (c ≤ b)

/-- A stretch meets an interval on a lane of a mask. -/
def Stretch.meets (x : Stretch) (mask : LaneSet) (a b : Int) : Bool :=
  lanesMeet x.mask mask && intervalsMeet x.head x.tail a b

/-- A stretch at its place: after every stretch whose head is not further upstream (R126). -/
def insertStretch (x : Stretch) : List Stretch → List Stretch
  | [] => [x]
  | y :: rest => if y.head ≤ x.head then y :: insertStretch x rest else x :: y :: rest

/-- The map has room for a stretch (R128). -/
def mapHasRoom (map : List Stretch) : Bool := decide (map.length < Config.mapCapacity)

/-- A stretch inserted, or refused with LIST FULL where the map is full (R128). -/
def State.insertStretch (s : State) (x : Stretch) : State :=
  if mapHasRoom s.feed.map then
    { s with feed := { s.feed with map := Machine.insertStretch x s.feed.map } }
  else s.occur ⟨.listFull, x.tag, soleLane x.mask, detail16 x.head⟩

/-! ### The drop test (R133) -/

/-- The values of the head record's profile at this station (R121, R22). -/
def State.headProfile (s : State) (p : Piece) : Profile := Image.profile s.image p.profile

/-- Condition 1 of the drop test: RUNNING and unparked, with the halt set empty (R133). -/
def State.lineAllows (s : State) : Bool := s.running && !s.parked && s.noHalt

/-- Condition 2: no PIECE or RESERVED stretch meets [-Gb, L + Ga] on a lane of the mask (R133). -/
def State.mapAllows (s : State) (p : Piece) : Bool :=
  s.feed.map.all fun x =>
    x.kind == .ownHole
      || !x.meets p.mask (-((s.headProfile p).gapBefore : Int)) (p.nominal + (s.headProfile p).gapAfter)

/-- Condition 3: every belt eye of the mask that is not OFF is clear with a clear-run of at least E + Gb (R133). -/
def State.eyesAllow (s : State) (p : Piece) : Bool :=
  (laneList p.mask).all fun k =>
    let e := s.eyes.get k
    e.state == .off || (!e.blocked && decide (Image.beltEye s.image + (s.headProfile p).gapBefore ≤ e.clearRun))

/-- The drop test for the head record `p` (R133). -/
def State.dropTest (s : State) (p : Piece) : Bool :=
  s.lineAllows && s.mapAllows p && s.eyesAllow p && mapHasRoom s.feed.map

/-! ### The end of an own hole (R149, R150, R151) -/

/-- The withdraw of the HOLE of an own hole that ends; the frame state becomes NONE or ABANDONED on the answer
(R149). -/
def State.withdrawEnded (s : State) : State :=
  if s.hole.frame = .current then
    let r := s.withdraw
    { r.1 with hole := { r.1.hole with frame := if r.2 then .none else .abandoned } }
  else s

/-- The hole unit ends the own hole at a drop; nothing where it is absent (R149). -/
def State.useOwnHole (s : State) : State := if s.ownHole.isSome then s.dropOwnHole.withdrawEnded else s

/-- The own hole is spent: h is below -Gb of its fit (R150). -/
def State.holeSpent (s : State) : Bool :=
  match s.ownHole, s.hole.fit with
  | some x, some f => decide (x.tail < (f.nominal : Int) + f.gapAfter)
  | some _, none => false
  | none, _ => false

/-- Patience restarted from 0 (R138). -/
def State.restartPatience (s : State) : State := { s with feed := { s.feed with patience := 0 } }

/-- The test for spending at a forward advance (R150). -/
def State.spendHole (s : State) : State :=
  if s.holeSpent then s.dropOwnHole.withdrawEnded.restartPatience else s

/-- An abandoned HOLE is withdrawn again (R151). -/
def State.retryWithdraw (s : State) : State :=
  if s.hole.frame = .abandoned then
    let r := s.withdraw
    if r.2 then { r.1 with hole := { r.1.hole with frame := .none } } else r.1
  else s

/-! ### The drop (R135) -/

/-- The stretch of the station's own drop (R135). -/
def ownDropStretch (own : Nat) (p : Piece) : Stretch :=
  ⟨.piece, own, some p.tag, p.mask, 0, p.nominal, false, false⟩

/-- The DROP of the head record (R135). -/
def dropOf (p : Piece) (batch : Bool) : Notice := .drop p.tag p.profile p.mask batch p.nominal ⟨0, false⟩

/-- The drop of the head record `p` (R135, R25, R125). -/
def State.drop (s : State) (p : Piece) : State :=
  let s1 := { s with
    feed := { s.feed with
      releaseTimer := s.startTimer (Image.releaseMs s.image), handshake := .clearing, lastDropped := some p.tag } }
  let s2 := s1.insertStretch (ownDropStretch (Image.address s.image) p)
  let batch := s2.feed.batchLatch
  let s3 := { s2 with feed := { s2.feed with batchLatch := false } }.add (dropOf p batch) 0
  let s4 := { s3 with feed := { s3.feed with queue := s3.feed.queue.drop 1, ready := false } }
  s4.useOwnHole.restartPatience

/-- The drop test is evaluated for the head record, with the handshake READY, and a drop made where it passes
(R134). -/
def State.evalDrop (s : State) : State :=
  if s.role = some .feed ∧ s.feed.handshake = .ready then
    match s.feed.queue with
    | [] => s
    | p :: _ => if s.dropTest p then s.drop p else s
  else s

/-- The drop test evaluated after a step that has ended a park, emptied the halt set, or inserted or removed a stretch
(R134): `before` is the state the step began with. -/
def reviewDrop (before s : State) : State :=
  if (before.parked && !s.parked) || (!before.noHalt && s.noHalt) || before.feed.map != s.feed.map then s.evalDrop
  else s

/-! ### Choosing a hole (R142, R143) -/

/-- The interval from a candidate is clear for a hole of length H on the lanes of M, and lies before the horizon
(R142). -/
def holeFits (im : Image) (map : List Stretch) (mask : LaneSet) (h a : Int) : Bool :=
  decide ((Image.holeLead im : Int) ≤ a) && decide (a + h ≤ Image.horizon im)
    && map.all fun x => !x.meets mask a (a + h)

/-- The hole head: the least candidate that meets the four conditions of R142. -/
def holeHead (im : Image) (map : List Stretch) (mask : LaneSet) (h : Int) : Option Int :=
  (((Image.holeLead im : Int) :: map.map fun x => x.tail + 1).filter (holeFits im map mask h)).min?

/-- The HOLE of an own hole (R143). -/
def holeOf (mask : LaneSet) (a : Int) (h : Nat) : Notice := .hole mask a.toNat h ⟨0, false⟩

/-- A hole found at head `a`: refused by a full map, or inserted and announced (R143). The frame state is CURRENT from
the add on, so that a discard report of this very frame finds it so (R144). -/
def State.openHole (s : State) (p : Piece) (f : Fit) (a : Int) : State :=
  let h := f.gapBefore + f.nominal + f.gapAfter
  let s1 := s.insertStretch ⟨.ownHole, Image.address s.image, none, p.mask, a, h, false, false⟩
  if mapHasRoom s.feed.map then
    { s1 with hole := ⟨some f, .current⟩ }.add (holeOf p.mask a h) 0
  else s1.restartPatience

/-- The hole unit looks for a hole, the frame state being NONE (R142, R143). -/
def State.lookForHole (s : State) (p : Piece) : State :=
  let v := s.headProfile p
  let f : Fit := ⟨v.gapBefore, p.nominal, v.gapAfter⟩
  match holeHead s.image s.feed.map p.mask (f.gapBefore + f.nominal + f.gapAfter) with
  | none => s.restartPatience
  | some a => s.openHole p f a

/-- The request to choose a hole for the head record (R142). -/
def State.chooseHole (s : State) (p : Piece) : State :=
  if s.ownHole.isSome then s
  else
    match s.hole.frame with
    | .abandoned =>
      let s1 := s.retryWithdraw
      if s1.hole.frame = .none then s1.lookForHole p else s1
    | .none => s.lookForHole p
    | .current => s

/-! ### Patience (R138, R139) -/

/-- The patience addition after a forward advance, and the request it may bring (R138, R139). The drop test has been
evaluated: a head that still stands READY has failed it. -/
def State.addPatience (s : State) (d : Int) : State :=
  match s.feed.queue with
  | [] => s
  | p :: _ =>
    if s.feed.handshake = .ready ∧ s.lineAllows ∧ ¬ s.dropTest p then
      let s1 := { s with feed := { s.feed with patience := addTravel s.feed.patience d } }
      if 1 ≤ Image.patience s.image ∧ Image.patience s.image ≤ s1.feed.patience ∧ s1.ownHole.isNone then
        s1.chooseHole p
      else s1
    else s

/-! ### The map on a travel advance (R127, R131, R150, R151) -/

/-- A stretch's head on an advance (step 1 of R127). -/
def Stretch.advance (x : Stretch) (d : Int) : Stretch := { x with head := sat16 (x.head - d) }

/-- A growing stretch takes the blocked-run of its lane's eye (step 2 of R127, R131). -/
def Stretch.grow (x : Stretch) (eyes : Quad Eye) : Stretch :=
  match x.growing, soleLane x.mask with
  | true, some k => { x with length := (eyes.get k).blockedRun }
  | true, none => x
  | false, _ => x

/-- The feed unit and the hole unit take a travel advance on the map, the eye unit having taken it (R127, R150,
R151). -/
def State.moveMap (s : State) (d : Int) : State :=
  let s1 := { s with feed := { s.feed with map := s.feed.map.map fun (x : Stretch) => (x.advance d).grow s.eyes } }
  let s2 := (if 0 < d then s1.spendHole else s1).retryWithdraw
  if 0 < d then
    { s2 with feed := { s2.feed with map := s2.feed.map.filter fun x => decide (0 ≤ x.tail) } }
  else s2

/-- Growing ends on a lane: the length keeps its value (R131). -/
def State.endGrowing (s : State) (k : Lane) : State :=
  { s with
    feed := { s.feed with
      map := s.feed.map.map fun x =>
        if x.growing && hasLane x.mask k then { x with growing := false } else x } }

/-! ### Belt-eye edges (R130, R131) -/

/-- The distance of the point E from a stretch's interval widened by the early fixed tolerance; 0 where it is
covered (R130). -/
def Stretch.distance (x : Stretch) (widen : Nat) (e : Int) : Int :=
  max 0 (max (x.head - widen - e) (e - (x.tail + widen)))

/-- The distance from E to the nearest widened interval of a PIECE stretch on lane k, held at 32767 (R130). -/
def coverDistance (im : Image) (map : List Stretch) (k : Lane) : Int :=
  map.foldl
    (fun m x =>
      if x.kind == .piece && hasLane x.mask k then
        min m (x.distance (Image.earlyFixed im) (Image.beltEye im))
      else m) 32767

/-- The point E is covered on lane k (R130). -/
def covered (im : Image) (map : List Stretch) (k : Lane) : Bool :=
  map.any fun x =>
    x.kind == .piece && hasLane x.mask k && decide (x.distance (Image.earlyFixed im) (Image.beltEye im) = 0)

/-- The feed unit takes a leading edge on lane k, in RUNNING (R130). -/
def State.feedLeading (s : State) (k : Lane) : State :=
  if covered s.image s.feed.map k then s
  else
    let d := coverDistance s.image s.feed.map k
    let x : Stretch := ⟨.piece, 0, none, laneBit k, Image.beltEye s.image, 0, true, false⟩
    (s.insertStretch x).occur ⟨.unannounced, none, some k, detail16 d⟩

/-! ### Received DROP and HOLE at a FEED station (R129, R145 to R147) -/

/-- The feed unit takes a DROP with its sender's offset, in JOINING and RUNNING (R129). -/
def State.feedDrop (s : State) (sender ident : Nat) (o : Int) (t : Tag) (p : Nat) (m : LaneSet) (nominal : Nat)
    (st : Stamp) : State :=
  let mask := m &&& Image.lanes s.image
  let h := sat16 (o - st.age)
  if o ≤ 0 then s
  else
    match fieldCause mask t p nominal with
    | some c => s.occur (peerFault c ident (peerTag t))
    | none =>
      if st.stale then s.occur ⟨.lateNotice, some t, soleLane mask, detail16 (sat16 (o - Config.maxAge))⟩
      else if h + nominal < 0 then s
      else s.insertStretch ⟨.piece, sender, some t, mask, h, nominal, false, false⟩

/-- The RESERVED stretches of an owner removed (R146 step 1). -/
def withoutReservation (map : List Stretch) (owner : Nat) : List Stretch :=
  map.filter fun x => !(x.kind == .reserved && x.owner == owner)

/-- A HOLE is void here: it meets a reservation, or the own hole with confirmed yes (R146 step 3). -/
def holeVoid (map : List Stretch) (mask : LaneSet) (a b : Int) : Bool :=
  map.any fun x => (x.kind == .reserved || (x.kind == .ownHole && x.confirmed)) && x.meets mask a b

/-- A HOLE meets the own hole with confirmed no (R146 step 4). -/
def holeYields (map : List Stretch) (mask : LaneSet) (a b : Int) : Bool :=
  map.any fun x => x.kind == .ownHole && !x.confirmed && x.meets mask a b

/-- The own hole yields to a reservation (R147). -/
def State.yieldTo (s : State) (x : Stretch) : State :=
  let r := s.withdraw
  let s1 := { r.1 with hole := { r.1.hole with frame := if r.2 then .none else .abandoned } }
  (s1.dropOwnHole.insertStretch x).restartPatience

/-- A HOLE past the checks is placed: former reservation, passed, void, yield or reserve (R146). -/
def State.placeHole (s : State) (sender : Nat) (mask : LaneSet) (h : Int) (length : Nat) : State :=
  let s1 := { s with feed := { s.feed with map := withoutReservation s.feed.map sender } }
  let x : Stretch := ⟨.reserved, sender, none, mask, h, length, false, false⟩
  if x.tail < 0 then s1
  else if holeVoid s1.feed.map mask h x.tail then s1
  else if holeYields s1.feed.map mask h x.tail then s1.yieldTo x
  else s1.insertStretch x

/-- The hole unit takes a HOLE with its sender's offset, in JOINING and RUNNING (R145). -/
def State.feedHole (s : State) (sender ident : Nat) (o : Int) (m : LaneSet) (head length : Nat) (st : Stamp) : State :=
  let mask := m &&& Image.lanes s.image
  if 0 ≤ o then s
  else if mask = 0 then s.occur (peerFault 8 ident none)
  else if 32767 < head ∨ Config.maxHoleLength < length then s.occur (peerFault 10 ident none)
  else if st.stale then
    s.occur ⟨.lateNotice, none, soleLane mask, detail16 (sat16 (o + head - Config.maxAge))⟩
  else s.placeHole sender mask (sat16 (o + head - st.age)) length

/-- The transmit completion of the station's HOLE (R144). -/
def State.holeCompleted (s : State) : State :=
  match s.hole.frame with
  | .current =>
    { s with
      feed := { s.feed with
        map := s.feed.map.map fun x => if x.kind == .ownHole then { x with confirmed := true } else x }
      hole := { s.hole with frame := .none } }
  | .abandoned => { s with hole := { s.hole with frame := .none } }
  | .none => s

/-! ### The feed queue and the handshake (R121 to R125) -/

/-- The profile that a reading of the select lines chooses (R24). -/
def selectedProfile (im : Image) (n : Nat) : Nat := if Image.profileUsed im n then n else 0

/-- A record created by the feed unit at the end of the queue, with a tag drawn for it (R19, R24). -/
def State.createRecord (s : State) (profile : Nat) : State :=
  let t := (s.draw).1
  let s1 := (s.draw).2
  let p : Piece :=
    ⟨t, profile, Image.feedMask s.image profile, (Image.profile s.image profile).nominal, none, .none⟩
  { s1 with feed := { s1.feed with queue := s1.feed.queue ++ [p] } }

/-- A FEED occurrence (R122, R124, R125). -/
def feedFault (t : Option Tag) (detail : Nat) : Occurrence := ⟨.feed, t, none, BitVec.ofNat 16 detail⟩

/-- CLAMP_CLOSED_EDGE (R122, R24). -/
def execClampClosedEdge (select : BitVec 4) (s : State) : Host.Outcome State Fault Refusal :=
  if s.role = some .feed ∧ s.running then
    if s.feed.queue.length < Config.feedCapacity then
      .next (s.createRecord (selectedProfile s.image select.toNat))
    else .next (s.occur (feedFault none 1))
  else .next s

/-- The spreader-ready input goes active in WAITING at a RUNNING FEED station: a profile 0 record is created for an
empty queue, and the head becomes ready (R124). -/
def State.presentHead (s : State) : State :=
  let s1 :=
    if s.feed.queue.isEmpty then
      (s.createRecord 0).occur (feedFault (some (s.draw).1) 2)
    else s
  { s1 with feed := { s1.feed with ready := true, handshake := .ready } }.evalDrop

/-- SPREADER_READY_RISING (R124): the level is held in every state. -/
def execSpreaderReadyRising (s : State) : Host.Outcome State Fault Refusal :=
  if s.feed.spreader then .next s
  else
    let s1 := { s with feed := { s.feed with spreader := true } }
    if s.role = some .feed ∧ s.running ∧ s.feed.handshake = .waiting then .next s1.presentHead else .next s1

/-- SPREADER_READY_FALLING (R124). -/
def execSpreaderReadyFalling (s : State) : Host.Outcome State Fault Refusal :=
  if s.feed.spreader then
    match s.feed.handshake with
    | .waiting => .next { s with feed := { s.feed with spreader := false } }
    | .ready => .next { s with feed := { s.feed with spreader := false, ready := false, handshake := .waiting } }
    | .clearing =>
      .next { s with feed := { s.feed with spreader := false, handshake := .waiting, stuckTimer := .stopped } }
  else .next s

/-- RELEASE_PULSE_EXPIRY (R125): the release output goes inactive, and the spreader stuck timer starts where the
spreader is still ready in CLEARING. -/
def execReleasePulseExpiry (s : State) : Host.Outcome State Fault Refusal :=
  if s.feed.releaseTimer.isRunning then
    let s1 := s.atExpiryOf s.feed.releaseTimer
    let stuck :=
      if s1.feed.handshake = .clearing ∧ s1.feed.spreader then s1.startTimer (Image.spreaderStuckMs s1.image)
      else s1.feed.stuckTimer
    .next { s1 with feed := { s1.feed with releaseTimer := .stopped, stuckTimer := stuck } }
  else .next s

/-- SPREADER_STUCK_TIMER_EXPIRY (R125). -/
def execSpreaderStuckTimerExpiry (s : State) : Host.Outcome State Fault Refusal :=
  if s.feed.stuckTimer.isRunning then
    let s1 := s.atExpiryOf s.feed.stuckTimer
    let s2 := { s1 with feed := { s1.feed with stuckTimer := .stopped } }
    .next (s2.occur (feedFault s2.feed.lastDropped 3))
  else .next s

/-- BATCH_CLOSE_INPUT_ACTIVE (R25). -/
def execBatchCloseInputActive (s : State) : Host.Outcome State Fault Refusal :=
  if s.onLineAs .feed then .next { s with feed := { s.feed with batchLatch := true } } else .next s

end Sys2Proof.Machine
end

