-- ==== Sys2Proof/Machine/Travel.lean ====
section
/-! DEFINITION. The travel unit (chapter 1) and the travel advance through every block, with the order in which this
model has the blocks take it (notes/assumptions/4.md); and the meanings of DECODER_EVENT, BELT_RUN_INPUT_CHANGE and
ENCODER_LOSS_TIMER_EXPIRY. -/

namespace Sys2Proof.Machine

open Sys2Proof

/-! ### The eyes on a travel advance (R97, R98) -/

/-- An eye's clear-run or blocked-run on an advance (R97). -/
def Eye.advance (e : Eye) (d : Int) : Eye :=
  if e.state = .off then e
  else if e.blocked then { e with blockedRun := addTravel e.blockedRun d }
  else { e with clearRun := addTravel e.clearRun d }

/-- The eye becomes STUCK at a forward advance (R98). -/
def Eye.goesStuck (e : Eye) (im : Image) : Bool :=
  e.blocked && (e.state == .normal || e.state == .suspect) && decide (Image.stuckLength im < e.blockedRun)

/-- The report that lane k's eye has become STUCK, taken by the tracker or the feed unit (R98, R113, R131). -/
def State.laneStuck (s : State) (k : Lane) : State :=
  match s.role with
  | some .feed => s.endGrowing k
  | some .check => s.unblock k true
  | some .sort => s.unblock k true
  | none => s

/-- The eye of lane k is tested for STUCK on a forward advance (R98). The occurrence, with the park that its severity may
begin, is taken before the role block acts on the lane: DESIGN CHOICE, since R98 has the eye unit do 'two things' at one
event and gives no order (notes/assumptions/30.md). A passage that this ends at a SORT station is decided after it. -/
def State.testStuck (s : State) (k : Lane) : State :=
  let e := s.eyes.get k
  if e.goesStuck s.image then
    let tag := if s.tracks then s.tracker.blockedTag k else none
    ({ s with eyes := s.eyes.set k { e with state := .stuck } }.occur
      ⟨.eyeStuck, tag, some k, BitVec.ofNat 16 e.blockedRun⟩).laneStuck k
  else s

/-! ### The travel advance (R6) -/

/-- Every block's distances on an advance of d mm: eyes, slot ages, the tracker's records, and the sort unit's gap
counter and countdowns (R44, R83, R97, R108, R114, R153, R159). -/
def State.moveAll (s : State) (d : Int) : State :=
  { s with
    eyes := s.eyes.mapAt fun _ e => e.advance d
    port := s.port.advance d
    tracker := if s.tracks then s.tracker.advance d else s.tracker
    sort := if s.role = some .sort then s.sort.advance s.bladePulse d else s.sort }

/-- The feed unit and the hole unit take the advance on the map, at a FEED station (R127). -/
def State.moveFeed (s : State) (d : Int) : State := if s.role = some .feed then s.moveMap d else s

/-- What a forward advance brings about once the distances have changed: eyes becoming STUCK, strays adopted, windows
closing (R84, R98, R117). -/
def State.forwardEvents (s : State) : State :=
  let s1 := lanes.foldl State.testStuck s
  if s1.tracks then (s1.adoptPastGrace 4).closeWindows else s1

/-- A travel advance of d mm, taken by every block (R6). -/
def State.travelAdvance (s : State) (d : Int) : State :=
  let s1 := (s.moveAll d).moveFeed d
  let s2 := if 0 < d then s1.forwardEvents else s1
  if s2.role = some .feed then
    let s3 := s2.evalDrop
    if 0 < d then s3.addPatience d else s3
  else s2

/-! ### Counts (R1 to R5, R10) -/

/-- How the decoder classifies a new phase pair against the held pair (R1). -/
inductive DecoderChange where
  | same | forward | reverse | double
  deriving DecidableEq, Repr

/-- The table of R1; a pair equal to the held pair is no change. -/
def classify (heldA heldB a b : Bool) : DecoderChange :=
  match heldA, heldB, a, b with
  | false, false, true, false => .forward
  | true, false, true, true => .forward
  | true, true, false, true => .forward
  | false, true, false, false => .forward
  | false, false, false, true => .reverse
  | false, true, true, true => .reverse
  | true, true, true, false => .reverse
  | true, false, false, false => .reverse
  | false, false, true, true => .double
  | true, true, false, false => .double
  | true, false, false, true => .double
  | false, true, true, false => .double
  | false, false, false, false => .same
  | false, true, false, true => .same
  | true, false, true, false => .same
  | true, true, true, true => .same

/-- The sum or difference of R4 and R5: f + S on a forward count, f - S on a reverse count. -/
def countSum (fraction step : Nat) (forward : Bool) : Int :=
  if forward then (fraction : Int) + step else (fraction : Int) - step

/-- The advance d of a count: the floor of the sum over 256 (R4, R5). -/
def countAdvance (fraction step : Nat) (forward : Bool) : Int := countSum fraction step forward / 256

/-- The new fraction of a count: the remainder (R4, R5). -/
def countFraction (fraction step : Nat) (forward : Bool) : Nat := (countSum fraction step forward % 256).toNat

/-- A count taken through the accumulator while it works, with the travel advance it gives (R3 to R6). -/
def State.accumulate (s : State) (forward : Bool) : State :=
  let d := countAdvance s.travel.fraction (Image.step s.image) forward
  let f := countFraction s.travel.fraction (Image.step s.image) forward
  let s1 := { s with travel := { s.travel with fraction := f } }
  if d = 0 then s1 else s1.travelAdvance d

/-- ENCODER LOST ends: the condition is cleared and the park cause withdrawn, with what park end brings (R10, R61). -/
def State.encoderReturns (s : State) : State := reviewDrop s { s with travel := { s.travel with lost := false } }

/-- The encoder-loss timer restarted from its full length (R8). -/
def State.restartLoss (s : State) : State :=
  { s with travel := { s.travel with lossTimer := s.startTimer (Image.lossMs s.image) } }

/-- A count at a station that is JOINING or RUNNING (R4, R5, R8, R10). -/
def State.countOnLine (s : State) (forward : Bool) : State :=
  if s.travel.lost then
    let s1 := s.encoderReturns.accumulate forward
    if s1.travel.beltRun then s1.restartLoss else s1
  else
    let s1 := s.accumulate forward
    if s1.travel.lossTimer.isRunning then s1.restartLoss else s1

/-- A count: the encoder count changes in every state, and the accumulator takes it while it works (R2, R3). -/
def State.takeCount (s : State) (forward : Bool) : State :=
  let n := if forward then s.travel.count + 1 else s.travel.count - 1
  let s1 := { s with travel := { s.travel with count := n } }
  if s1.onLine then s1.countOnLine forward else s1

/-- DECODER_EVENT (R1). -/
def execDecoderEvent (a b : Bool) (s : State) : Host.Outcome State Fault Refusal :=
  let held := { s with travel := { s.travel with phaseA := a, phaseB := b } }
  match classify s.travel.phaseA s.travel.phaseB a b with
  | .same => .next s
  | .double => .next held
  | .forward => .next (held.takeCount true)
  | .reverse => .next (held.takeCount false)

/-! ### Belt-run and encoder loss (R8, R9) -/

/-- BELT_RUN_INPUT_CHANGE (R8). -/
def execBeltRunInputChange (active : Bool) (s : State) : Host.Outcome State Fault Refusal :=
  if s.travel.beltRun = active then .next s
  else
    let s1 := { s with travel := { s.travel with beltRun := active } }
    if active then
      if s1.onLine && !s1.travel.lost then .next s1.restartLoss else .next s1
    else .next { s1 with travel := { s1.travel with lossTimer := .stopped } }

/-- ENCODER LOST begins: condition and park cause, the degraded marks, and fault ENCODER (R9, R61, R108, R114). -/
def State.encoderLost (s : State) : State :=
  let s1 := followParkBegin s
    { s with
      travel := { s.travel with lost := true, lossTimer := .stopped }
      tracker := s.tracker.degrade }
  s1.occur ⟨.encoder, none, none, s1.travel.count⟩

/-- ENCODER_LOSS_TIMER_EXPIRY (R9). -/
def execEncoderLossTimerExpiry (s : State) : Host.Outcome State Fault Refusal :=
  if s.travel.lossTimer.isRunning then .next (s.atExpiryOf s.travel.lossTimer).encoderLost else .next s

end Sys2Proof.Machine
end

