-- ==== Sys2Proof/Machine/Eyes.lean ====
section
/-! DEFINITION. The eye unit's inputs (chapters 1.5 and 6): debounce, edges and where they go, and the clearing of a
STUCK eye; the meanings of EYE_RAW_CHANGE and EYE_DEBOUNCE_EXPIRY. -/

namespace Sys2Proof.Machine

open Sys2Proof

/-- A leading edge of lane k handed on (R102): at a CHECK or SORT station to the tracker in RUNNING, then at a SORT
station to the gap measurement; at a FEED station to the feed unit in RUNNING, with the drop test after it (R130,
R134, R153). -/
def State.handLeading (s : State) (k : Lane) : State :=
  match s.role with
  | some .check => if s.running then s.trackLeading k else s
  | some .sort =>
    let s1 := if s.running then s.trackLeading k else s
    if s1.onLine then { s1 with sort := s1.sort.leadingEdge s1.eyes k } else s1
  | some .feed => if s.running then (s.feedLeading k).evalDrop else s
  | none => s

/-- A trailing edge of lane k handed on (R102, R109, R131, R153). -/
def State.handTrailing (s : State) (k : Lane) : State :=
  match s.role with
  | some .check => if s.running then s.unblock k false else s
  | some .sort =>
    let s1 := if s.running then s.unblock k false else s
    if s1.onLine then { s1 with sort := s1.sort.trailingEdge } else s1
  | some .feed => (s.endGrowing k).evalDrop
  | none => s

/-- The debounced level of lane k's eye changes (R95, R99). An edge of an OFF eye changes only the level; a STUCK eye
that goes clear becomes NORMAL, without an edge; any other change is an edge, and is handed on. -/
def State.levelChange (s : State) (k : Lane) : State :=
  let e := s.eyes.get k
  let flipped := { e with blocked := !e.blocked }
  let zeroed := { flipped with clearRun := 0, blockedRun := 0 }
  let put (x : Eye) : State := { s with eyes := s.eyes.set k x }
  match e.state with
  | .off => put flipped
  | .stuck => (put { zeroed with state := .normal, losses := 0 }).evalDrop
  | .normal => if e.blocked then (put zeroed).handTrailing k else (put zeroed).handLeading k
  | .suspect => if e.blocked then (put zeroed).handTrailing k else (put zeroed).handLeading k

/-- The raw level of lane k's eye is taken as the debounced level, if it differs from the one held (R15). -/
def State.takeLevel (s : State) (k : Lane) : State :=
  if (s.eyes.get k).raw = (s.eyes.get k).blocked then s else s.levelChange k

/-- EYE_RAW_CHANGE (R15): with a debounce time in the frozen image the timer starts or restarts; with a debounce time
of 0, and before the image is frozen, the level is taken at once. -/
def execEyeRawChange (k : Lane) (blocked : Bool) (s : State) : Host.Outcome State Fault Refusal :=
  let e := s.eyes.get k
  if e.raw = blocked then .next s
  else if s.spi.frozen && Image.debounceMs s.image != 0 then
    .next { s with
      eyes := s.eyes.set k { e with raw := blocked, debounce := s.startTimer (Image.debounceMs s.image) } }
  else .next ({ s with eyes := s.eyes.set k { e with raw := blocked } }.takeLevel k)

/-- EYE_DEBOUNCE_EXPIRY (R15). -/
def execEyeDebounceExpiry (k : Lane) (s : State) : Host.Outcome State Fault Refusal :=
  let e := s.eyes.get k
  if e.debounce.isRunning then
    let s1 := s.atExpiryOf e.debounce
    .next ({ s1 with eyes := s1.eyes.set k { e with debounce := .stopped } }.takeLevel k)
  else .next s

end Sys2Proof.Machine
end

