-- ==== Sys2Proof/Machine/Control.lean ====
section
/-! DEFINITION. Station control (chapter 4): hard reset, the clear of the role blocks, entry to LOCKOUT, JOIN and
LEAVE as operations, PRESENT and HALT from a peer, own-address frames, and the departure; the meanings of HARD_RESET,
HOLD_INPUT_CHANGE and SETTLE_TIMER_EXPIRY. -/

namespace Sys2Proof.Machine

open Sys2Proof

/-- HARD_RESET (R51): every block at its reset values, with the input levels found as reset ends; the commands that
wait are the model's own and stay. -/
def execHardReset (pins : Pins) (s : State) : Host.Outcome State Fault Refusal :=
  .next { State.afterReset pins with pending := s.pending }

/-! ### Clearing the tracking state (R55, R68, R96) -/

/-- An eye set anew by the image at JOIN, LEAVE and entry to LOCKOUT: OFF or NORMAL, counts at 0 (R96). -/
def Eye.renewed (e : Eye) (isOff : Bool) : Eye :=
  { e with state := if isOff then .off else .normal, losses := 0, clearRun := 0, blockedRun := 0 }

/-- Every eye set anew by the image (R96). -/
def State.renewEyes (s : State) : State :=
  { s with eyes := s.eyes.mapAt fun k (e : Eye) => e.renewed (Image.eyeIsOff s.image k) }

/-- The travel unit ends accumulation: f at 0, ENCODER LOST clear, the loss timer stopped (R7, R8, R11). -/
def TravelUnit.ended (t : TravelUnit) : TravelUnit := { t with fraction := 0, lost := false, lossTimer := .stopped }

/-- Every role block clears its tracking state, the eye unit sets its eyes anew and the travel unit ends accumulation
(R55, R68, R94, R96, R120, R140, R141, R170). -/
def State.clearTracking (s : State) : State :=
  { s.renewEyes with
    travel := s.travel.ended
    tracker := .cleared
    feed := .cleared s.feed.spreader
    hole := .cleared
    sort := .cleared s.sort.runout s.sort.tally }

/-! ### Entry to LOCKOUT (R55) -/

/-- A clash in JOINING sends the station to LOCKOUT (R55). -/
def State.lockOut (s : State) (cause : LockoutCause) : State :=
  let s1 := s.clearTracking.clearPort
  { s1 with
    control := { s1.control with
      state := .lockout, lockoutCause := some cause, settleTimer := .stopped
      haltSet := 0, firstHalt := none, ownHalt := none, queued := none, owed := none } }

/-! ### PRESENT (R53, R57, R58) -/

/-- The PRESENT of this station (R53, R57, R59). -/
def State.presentNotice (s : State) (defend : Bool) : Notice :=
  .present (Image.byte s.image 0x001) (Image.laneCount s.image) (Image.profileSum s.image) s.control.restartFlag defend

/-- A PEER occurrence reported where a condition holds (R58, R60). -/
def State.peerIf (s : State) (b : Bool) (cause ident : Nat) : State :=
  if b then s.occur (peerFault cause ident none) else s

/-- The address removed from the halt set (R62, R63). -/
def State.unhalt (s : State) (a : Nat) : State := { s with control := s.control.removeHalt a }

/-- A PRESENT from another address, in JOINING or RUNNING (R58). -/
def State.takePresent (s : State) (sender ident role laneCount sum : Nat) (restarted defend : Bool) : State :=
  let s1 := s.peerIf (laneCount != Image.laneCount s.image) 1 ident
  let s2 := s1.peerIf (sum != Image.profileSum s1.image) 2 ident
  let s3 := s2.peerIf restarted 3 ident
  let s4 := s3.peerIf (decide (role < 1) || decide (3 < role)) 7 ident
  let s5 := if defend then s4 else s4.unhalt sender
  s5.resendHalt

/-- A HALT from another address, in JOINING or RUNNING (R62). -/
def State.takeHalt (s : State) (sender ident reason : Nat) (tag : Option Tag) : State :=
  if reason ≤ 16 then { s with control := s.control.addHalt sender reason tag }
  else s.occur (peerFault 6 ident none)

/-! ### Own-address frames (R55, R57) -/

/-- An own-address frame in RUNNING (R57). -/
def State.defend (s : State) (ident : Nat) (n : Notice) : State :=
  match n with
  | .present _ _ _ _ false =>
    let s1 := (s.occur (peerFault 4 ident none)).resendHalt
    s1.add (s1.presentNotice true) 0
  | .present _ _ _ _ true => s.occur (peerFault 5 ident none)
  | .halt .. | .resume | .loss .. | .pass .. | .drop .. | .hole .. => s.occur (peerFault 5 ident none)

/-- Station control takes an own-address frame (R47, R55, R57). -/
def State.takeOwnAddress (s : State) (ident : Nat) (n : Notice) : State :=
  match s.control.state with
  | .joining => s.lockOut (.ownAddress n.code)
  | .running => s.defend ident n
  | .unconfigured | .configured | .lockout => s

/-! ### JOIN and LEAVE (R53, R68) -/

/-- The station enters JOINING (R53, R171, R8, R96). -/
def State.joinLine (s : State) : State :=
  let s1 := s.renewEyes
  let s2 := { s1 with
    spi := { s1.spi with frozen := true }
    faults := { s1.faults with policy := Image.policy s1.image }
    travel := { s1.travel with
      fraction := 0
      lossTimer := if s1.travel.beltRun then s1.startTimer (Image.lossMs s1.image) else .stopped }
    port := ⟨true, .busy, [], 0, false, .stopped⟩
    control := { s1.control with state := .joining, settleTimer := s1.startTimer Config.settleMs } }
  s2.add (s2.presentNotice false) 0

/-- Step 1 of R68: the own halt removed and RESUME announced. A halt request that the add brings is taken once the
station has left, as nothing (notes/assumptions/17.md). -/
def State.leaveHalt (s : State) : State :=
  if s.ownHaltOut then
    State.announceQuiet
      { s with control := { s.control.removeHalt (Image.address s.image) with ownHalt := none } } .resume
  else s

/-- An eye as the image is unfrozen at LEAVE: the debounce timer stopped and the raw level taken, with no edge
(R96). -/
def Eye.unfrozen (e : Eye) : Eye := { e with debounce := .stopped, blocked := e.raw }

/-- The station leaves the line (R68). The hole unit withdraws its HOLE, whatever the answer (R141). -/
def State.leaveLine (s : State) : State :=
  let s1 := s.leaveHalt.withdraw.1.clearTracking
  let s2 := { s1 with
    eyes := s1.eyes.mapAt fun _ (e : Eye) => e.unfrozen
    spi := { s1.spi with frozen := false }
    control := { s1.control with
      state := .configured, haltSet := 0, firstHalt := none, ownHalt := none, settleTimer := .stopped } }
  if s2.control.queued.isNone && s2.control.owed.isNone then s2.clearPort
  else { s2 with control := { s2.control with departure := true } }

/-! ### The announcement's completion and the departure (R67, R69) -/

/-- The departure ends when the announcement state is none and none (R69). -/
def State.endDeparture (s : State) : State :=
  if s.control.departure && s.control.queued.isNone && s.control.owed.isNone then
    { s with control := { s.control with departure := false } }.clearPort
  else s

/-- The transmit completion of station control's HALT or RESUME (R67, R69). -/
def State.announcementSent (s : State) : State :=
  match s.control.owed with
  | none => { s with control := { s.control with queued := none } }.endDeparture
  | some k =>
    let s1 := { s with control := { s.control with queued := some k, owed := none } }
    s1.add (s1.control.announcement k) 0

/-! ### The hold input and the settle timer (R61, R54) -/

/-- HOLD_INPUT_CHANGE (R61). -/
def execHoldInputChange (active : Bool) (s : State) : Host.Outcome State Fault Refusal :=
  let s1 := { s with control := { s.control with holdInput := active } }
  .next (reviewDrop s (followParkBegin s s1))

/-- The own halt raised at entry to RUNNING for the lowest-numbered pending kind of severity HALT (R54). -/
def State.haltAtEntry (s : State) : State :=
  match s.faults.haltKind with
  | none => s
  | some k => s.raiseOwnHalt k.number none

/-- SETTLE_TIMER_EXPIRY (R54). -/
def execSettleTimerExpiry (s : State) : Host.Outcome State Fault Refusal :=
  if s.control.settleTimer.isRunning ∧ s.control.state = .joining then
    let s1 := s.atExpiryOf s.control.settleTimer
    let s2 := { s1 with control := { s1.control with state := .running, settleTimer := .stopped } }
    .next (reviewDrop s s2.haltAtEntry)
  else .next s

end Sys2Proof.Machine
end

