-- ==== Sys2Proof/Machine/Bus.lean ====
section
/-! DEFINITION. The line port (chapter 3): send attempts and their three ends, the off-line period, the idle medium,
and received frames, judged and handed to the block that owns their kind. -/

namespace Sys2Proof.Machine

open Sys2Proof

/-! ### The medium, and what the port does on it (R29, R30) -/

/-- The port follows another station's frame, or may take a start bit as the beginning of one (R30): the answer says
whether the frame is one on which the station suffered a transmit failure (R36, R46). None where the port takes no
frame: it is inactive, it waits for the medium to be idle, or its own frame is in send. -/
def LinePort.reads (p : LinePort) : Option Bool :=
  if p.active then
    match p.medium with
    | .idle => some false
    | .following failed => some failed
    | .busy => none
    | .sending => none
  else none

/-- The port waits for the medium to be idle (R30). -/
def State.waitIdle (s : State) : State := { s with port := { s.port with medium := .busy } }

/-! ### Starting to send (R30, R39, R45) -/

/-- The port may start a send attempt, if a frame waits (R30, R38). -/
def LinePort.maySend (p : LinePort) : Bool := p.active && p.medium == .idle && !p.offLine && p.inSend.isNone

/-- The age field and the stale flag for a slot age (R45). -/
def stampFor (age : Nat) : Stamp := if age ≤ Config.maxAge then ⟨age, false⟩ else ⟨Config.maxAge, true⟩

/-- A slot at the start bit of its send attempt: in send, with the age written (R45). -/
def Slot.started (x : Slot) : Slot := { x with notice := x.notice.stamped (stampFor x.age), inSend := true }

/-- The queue with its first waiting frame put in send (R39). -/
def startFirst : List Slot → List Slot
  | [] => []
  | x :: rest => if x.inSend then x :: startFirst rest else x.started :: rest

/-- SEND_ATTEMPT_START (R30). -/
def execSendAttemptStart (s : State) : Host.Outcome State Fault Refusal :=
  if s.port.maySend && !s.port.queue.isEmpty then
    .next { s with port := { s.port with queue := startFirst s.port.queue, medium := .sending } }
  else .next s

/-! ### The three ends of an attempt (R35, R36, R37) -/

/-- The identifier byte of a frame of this station's (R34). -/
def State.identByte (s : State) (x : Slot) : Byte := BitVec.ofNat 8 (s.identOf x.notice)

/-- The bit at a place of the frame in send is a recessive identifier bit (R35). -/
def State.contends (s : State) (x : Slot) (pos : Nat) : Bool :=
  recessiveIdentifierBit (s.identByte x) x.notice.bytes pos

/-- The bits the port drives for the frame in send (R31, R32). -/
def State.drives (s : State) (x : Slot) : List Bool := frameBits (s.identByte x) x.notice.bytes

/-- LOST_CONTENTION (R35). -/
def execLostContention (pos : Nat) (s : State) : Host.Outcome State Fault Refusal :=
  match s.port.inSend with
  | none => .next s
  | some x =>
    if s.contends x pos then .next { s with port := { s.port.backToWaiting with medium := .following false } }
    else .next s

/-- A clash at a failed PRESENT (R36), as station control takes it (R55, R57). -/
def State.takeClash (s : State) : State :=
  match s.control.state with
  | .joining => s.lockOut .failedPresent
  | .running | .unconfigured | .configured | .lockout => s

/-- The port goes off-line at the 16th consecutive failure, which frame `x` suffered (R38). -/
def State.goOffLine (s : State) (x : Slot) : State :=
  { s with port := { s.port with offLine := true, offLineTimer := s.startTimer Config.offLineMs } }.occur
    (lineBus 7 (s.identOf x.notice) none)

/-- The notice is a PRESENT. -/
def Notice.isPresent : Notice → Bool
  | .present .. => true
  | .halt .. | .resume | .loss .. | .pass .. | .drop .. | .hole .. => false

/-- A transmit failure of frame `x` (R36): the frame waits again, the count adds one and may take the port off-line,
and a failed PRESENT is a clash (notes/assumptions/10.md). -/
def State.sendFailed (s : State) (x : Slot) : State :=
  let n := min Config.offLineFailures (s.port.failures + 1)
  let s1 := { s with port := { s.port.backToWaiting with failures := n, medium := .following true } }
  let s2 := if n = Config.offLineFailures then s1.goOffLine x else s1
  if x.notice.isPresent then s2.takeClash else s2

/-- TRANSMIT_FAILURE (R36). -/
def execTransmitFailure (pos : Nat) (s : State) : Host.Outcome State Fault Refusal :=
  match s.port.inSend with
  | none => .next s
  | some x =>
    if pos < (s.drives x).length ∧ ¬ s.contends x pos then .next (s.sendFailed x) else .next s

/-- The frame in send has left the queue, the failures are forgotten, and the port waits for the medium to be idle
(R30, R37). -/
def LinePort.sent (p : LinePort) : LinePort :=
  { p with queue := p.queue.filter fun x => !x.inSend, failures := 0, medium := .busy }

/-- A transmit completion as the block that queued the frame takes it: HALT and RESUME by R67, HOLE by R144, the others
as nothing (R67, R93, R136). -/
def State.takeCompletion (s : State) (n : Notice) : State :=
  match n with
  | .halt .. | .resume => s.announcementSent
  | .hole .. => s.holeCompleted
  | .loss .. | .pass .. | .drop .. | .present .. => s

/-- TRANSMIT_COMPLETION (R37). -/
def execTransmitCompletion (s : State) : Host.Outcome State Fault Refusal :=
  match s.port.inSend with
  | none => .next s
  | some x => .next ({ s with port := s.port.sent }.takeCompletion x.notice)

/-! ### Off-line (R38) -/

/-- OFF_LINE_TIMER_EXPIRY (R38). -/
def execOffLineTimerExpiry (s : State) : Host.Outcome State Fault Refusal :=
  if s.port.offLineTimer.isRunning then
    let s1 := s.atExpiryOf s.port.offLineTimer
    .next { s1 with port := { s1.port with offLine := false, failures := 0, offLineTimer := .stopped } }
  else .next s

/-- The port reads a dominant bit that it did not drive (R30): at an idle medium the start bit of another station's
frame, which it follows as a receiver; before the medium is idle, and in a frame, no start bit (notes/assumptions/26.md).
-/
def LinePort.readStartBit (p : LinePort) : LinePort :=
  if p.active ∧ p.medium = .idle then { p with medium := .following false } else p

/-- MEDIUM_BECOMES_IDLE (R30), and its other form, the start bit of another station's frame, by which the medium is idle
no longer. -/
def execMediumBecomesIdle (s : State) (idle : Bool := true) : Host.Outcome State Fault Refusal :=
  if idle then
    if s.port.active ∧ s.port.medium ≠ .sending then .next { s with port := { s.port with medium := .idle } }
    else .next s
  else .next { s with port := s.port.readStartBit }

/-! ### Frames that are discarded (R32, R46, R50) -/

/-- A LINE BUS occurrence of a discard; none is reported for a frame on which the station suffered a transmit failure
(R46). -/
def State.discardFault (s : State) (failed : Bool) (cause ident : Nat) : State :=
  if failed then s else s.occur (lineBus cause ident none)

/-- The station after a frame has been abandoned at a break of the bit rules (R32, R46). -/
def State.abandon (s : State) (failed : Bool) (ident : Option Byte) : State :=
  s.waitIdle.discardFault failed 2 ((ident.map BitVec.toNat).getD 0)

/-- FRAME_ABANDONED (R32): bits that break no bit rule are no such event (notes/assumptions/5.md). -/
def execFrameAbandoned (bits : List Bool) (s : State) : Host.Outcome State Fault Refusal :=
  match s.port.reads, follow bits with
  | some failed, .broken ident => .next (reviewDrop s (s.abandon failed ident))
  | _, _ => .next s

/-! ### Received frames (R46 to R49) -/

/-- What judging a frame comes to: a discard with its LINE BUS cause, or a received notice (R46, R50). -/
inductive Judged where
  | discard (cause : Nat)
  | notice (n : Notice)
  deriving DecidableEq, Repr

/-- A frame that has ended is judged, in the order of R46. -/
def judge (f : Frame) : Judged :=
  let code := f.ident.toNat / 16
  if f.check ≠ f.expectedCheck then .discard 1
  else if code = 0 ∨ 8 ≤ code then .discard 3
  else if f.ident.toNat % 16 = 0 then .discard 4
  else
    match noticeOf code f.data with
    | none => .discard 5
    | some n => .notice n

/-- A DROP handed to its owner at the station's role, with the sender's offset (R49). -/
def State.handDrop (s : State) (sender ident : Nat) (o : Int) (t : Tag) (p : Nat) (m : LaneSet) (batch : Bool)
    (nominal : Nat) (st : Stamp) : State :=
  match s.role with
  | some .feed => s.feedDrop sender ident o t p m nominal st
  | some .check => s.trackDrop ident o t p m batch nominal st
  | some .sort => s.trackDrop ident o t p m batch nominal st
  | none => s

/-- A notice from another address handed to the block that owns its kind at the station's role, in JOINING and
RUNNING; a sender that must be listed and is not is ignored (R49). -/
def State.handNotice (s : State) (sender ident : Nat) (n : Notice) : State :=
  match n with
  | .halt r t => s.takeHalt sender ident r t
  | .resume => s.unhalt sender
  | .present r c m a d => s.takePresent sender ident r c m a d
  | .loss t _ b => if s.tracks then s.trackLoss t b else s
  | .pass t p m f l st =>
    match Image.offsetOf s.image sender with
    | some o => if s.tracks then s.trackPass ident o t p m f l st else s
    | none => s
  | .drop t p m b l st =>
    match Image.offsetOf s.image sender with
    | some o => s.handDrop sender ident o t p m b l st
    | none => s
  | .hole m h l st =>
    match Image.offsetOf s.image sender with
    | some o => if s.role = some .feed then s.feedHole sender ident o m h l st else s
    | none => s

/-- A received notice: an own-address frame goes to station control (R47); any other is handed on in JOINING and
RUNNING (R49), and is taken as nothing in a departure (R69). -/
def State.receive (s : State) (ident : Nat) (n : Notice) : State :=
  if ident % 16 = Image.address s.image then s.takeOwnAddress ident n
  else if s.onLine then s.handNotice (ident % 16) ident n
  else s

/-- The station after a frame has ended (R46). -/
def State.frameEnds (s : State) (failed : Bool) (f : Frame) : State :=
  match judge f with
  | .discard cause => s.waitIdle.discardFault failed cause f.ident.toNat
  | .notice n => s.waitIdle.receive f.ident.toNat n

/-- RECEIVED_FRAME_END (R46): bits that are not a frame from its start bit to its last end-run bit are no such event
(notes/assumptions/5.md). -/
def execReceivedFrameEnd (bits : List Bool) (s : State) : Host.Outcome State Fault Refusal :=
  match s.port.reads, follow bits with
  | some failed, .ended f => .next (reviewDrop s (s.frameEnds failed f))
  | _, _ => .next s

end Sys2Proof.Machine
end

