-- ==== Sys2Proof/Machine/Port.lean ====
section
/-! DEFINITION. The station processor port (chapter 11): the commands, each taken as one event at the last bit of its
transaction's arguments (R181), with their checks in the order given (R182) and their responses. -/

namespace Sys2Proof.Machine

open Sys2Proof

/-! ### The response (R181) -/

/-- What a take with `arguments` argument bytes answers: the status byte formed as select went active, 00h on each
argument byte, then the result code and the bytes that follow it, as formed at the take (R181; notes/assumptions/11.md).
The transaction is no longer one that can be cut short. -/
def State.respond (before s : State) (arguments : Nat) (code : Byte) (bytes : List Byte) : State :=
  { s with
    spi := { s.spi with
      transaction := none
      returned := before.selectByte :: (List.replicate arguments 0 ++ code :: bytes) } }

/-- A refusal: the code, and no other change (R182). -/
def State.refuse (s : State) (arguments : Nat) (code : Byte) : State := s.respond s arguments code []

/-! ### Reads and acknowledgement (R186, R177, R187, R183) -/

/-- READ_STATUS (R186). -/
def execReadStatus (s : State) : Host.Outcome State Fault Refusal := .next (s.respond s 0 0x00 s.statusWord)

/-- READ_FAULTS (R186). -/
def execReadFaults (s : State) : Host.Outcome State Fault Refusal := .next (s.respond s 0 0x00 s.faultReport)

/-- The fault unit takes an acknowledgement of a kind set (R177). -/
def FaultUnit.ack (u : FaultUnit) (kinds : BitVec 16) : FaultUnit :=
  let clears := match u.first with
    | some o => (kinds &&& o.kind.bit) != 0
    | none => false
  { u with
    pending := u.pending &&& ~~~ kinds
    first := if clears then none else u.first
    more := if clears then false else u.more }

/-- ACK_FAULTS (R177). -/
def execAckFaults (kinds : BitVec 16) (s : State) : Host.Outcome State Fault Refusal :=
  .next (s.respond (reviewDrop s { s with faults := s.faults.ack kinds }) 2 0x00 [])

/-- The end record of READ TALLY (R187). -/
def endRecord : List Byte := List.replicate 9 0

/-- The tally records that a READ TALLY of `n` returns (R187). -/
def tallyBytes (queue : List Tally) (n : Nat) : List Byte :=
  (queue.take n).flatMap Tally.report ++ if queue.length < n then endRecord else []

/-- The `n` oldest records removed from the tally queue; at a FEED or CHECK station it is empty, and nothing is removed
(R187). -/
def State.takeTally (s : State) (n : Nat) : State :=
  { s with sort := { s.sort with tally := s.sort.tally.drop (min n s.tallyQueue.length) } }

/-- READ_TALLY (R187). -/
def execReadTally (n : Byte) (s : State) : Host.Outcome State Fault Refusal :=
  if n.toNat = 0 ∨ Config.tallyCapacity < n.toNat then .next (s.refuse 1 0x04)
  else
    .next (s.respond (s.takeTally n.toNat) 1 0x00 (tallyBytes s.tallyQueue n.toNat))

/-- A stretch of the image that READ IMAGE and WRITE CONFIG may name (R183). -/
def stretchAllowed (offset count : Nat) : Bool :=
  count != 0 && decide (count ≤ 64) && decide (offset + count ≤ Config.imageBytes)

/-- READ_IMAGE (R183). -/
def execReadImage (offset : BitVec 16) (count : Byte) (s : State) : Host.Outcome State Fault Refusal :=
  if stretchAllowed offset.toNat count.toNat then
    .next (s.respond s 3 0x00 ((s.image.drop offset.toNat).take count.toNat))
  else .next (s.refuse 3 0x04)

/-! ### The image (R183, R184, R52) -/

/-- The image with the data written, and the station UNCONFIGURED (R183, R52): the station was UNCONFIGURED or
CONFIGURED, since the image was not frozen. -/
def State.writeImage (s : State) (offset : Nat) (data : List Byte) : State :=
  { s with
    spi := { s.spi with image := Image.write s.image offset data }
    control := { s.control with
      state := if s.control.state = .configured then .unconfigured else s.control.state } }

/-- WRITE_CONFIG (R183). -/
def execWriteConfig (offset : BitVec 16) (data : List Byte) (s : State) : Host.Outcome State Fault Refusal :=
  if s.spi.frozen then .next (s.refuse (3 + data.length) 0x03)
  else if s.control.departure then .next (s.refuse (3 + data.length) 0x02)
  else if stretchAllowed offset.toNat data.length then
    .next (s.respond (s.writeImage offset.toNat data) (3 + data.length) 0x00 [])
  else .next (s.refuse (3 + data.length) 0x04)

/-- The station state after a VALIDATE (R52). -/
def State.withStationState (s : State) (x : StationState) : State := { s with control := { s.control with state := x } }

/-- VALIDATE (R184). -/
def execValidate (s : State) : Host.Outcome State Fault Refusal :=
  if s.spi.frozen then .next (s.refuse 0 0x03)
  else if s.control.departure then .next (s.refuse 0 0x02)
  else
    match Image.firstFailure s.image with
    | none => .next (s.respond (s.withStationState .configured) 0 0x00 [])
    | some o => .next (s.respond (s.withStationState .unconfigured) 0 0x05 (wordBytes o))

/-! ### Station commands (R185) -/

/-- JOIN (R53). -/
def execJoin (s : State) : Host.Outcome State Fault Refusal :=
  if s.control.state ≠ .configured ∨ s.control.departure then .next (s.refuse 0 0x02)
  else .next (s.respond s.joinLine 0 0x00 [])

/-- LEAVE (R68). -/
def execLeave (s : State) : Host.Outcome State Fault Refusal :=
  if s.onLine then .next (s.respond s.leaveLine 0 0x00 []) else .next (s.refuse 0 0x02)

/-- STOP_LINE (R65). -/
def execStopLine (s : State) : Host.Outcome State Fault Refusal :=
  if !s.running then .next (s.refuse 0 0x02)
  else if s.ownHaltOut then .next (s.refuse 0 0x06)
  else .next (s.respond (s.raiseOwnHalt 0 none) 0 0x00 [])

/-- The own halt removed and RESUME announced (R66). -/
def State.endOwnHalt (s : State) : State :=
  State.announce { s with control := { s.control.removeHalt (Image.address s.image) with ownHalt := none } } .resume

/-- RESUME (R66). -/
def execResume (s : State) : Host.Outcome State Fault Refusal :=
  if s.control.state = .lockout then .next (s.refuse 0 0x02)
  else if !s.ownHaltOut then .next (s.refuse 0 0x07)
  else if s.faults.haltKind.isSome then .next (s.refuse 0 0x08)
  else .next (s.respond (reviewDrop s s.endOwnHalt) 0 0x00 [])

/-- The stacker that a CLOSE STACK byte names; none above 3 (R167). -/
def stackerNamed (b : Byte) : Option StackerNo := if h : b.toNat < 4 then some ⟨b.toNat, h⟩ else none

/-- CLOSE_STACK (R167). -/
def execCloseStack (stacker : Byte) (s : State) : Host.Outcome State Fault Refusal :=
  if !s.onLine then .next (s.refuse 1 0x02)
  else if s.role ≠ some .sort then .next (s.refuse 1 0x0A)
  else
    match stackerNamed stacker with
    | none => .next (s.refuse 1 0x04)
    | some c =>
      if (s.sort.stackers.get c).discharging ∨ (s.sort.stackers.get c).stack.count = 0 then .next (s.refuse 1 0x09)
      else .next (s.respond (s.withSort (s.sort.close c .operator)) 1 0x00 [])

/-- CLEAR_RESTART (R59). -/
def execClearRestart (s : State) : Host.Outcome State Fault Refusal :=
  .next (s.respond { s with control := { s.control with restartFlag := false } } 0 0x00 [])

/-- UNKNOWN_COMMAND (R181): a code that R182 gives a command is no such event (notes/assumptions/5.md). -/
def execUnknownCommand (code : Byte) (s : State) : Host.Outcome State Fault Refusal :=
  if commandCodes.contains code then .next s else .next (s.refuse 0 0x01)

/-- TRANSACTION_CUT_SHORT (R181). Select going active begins a transaction, and the status byte is formed; repeated, it
is nothing (notes/assumptions/5.md). Select going inactive before the take ends it: nothing is taken and nothing changes,
and the part has returned the status byte, and 00h on the argument bytes clocked. -/
def execTransactionCutShort (s : State) (active : Bool := false) : Host.Outcome State Fault Refusal :=
  if active then .next { s with spi := { s.spi with transaction := some s.selectByte } }
  else .next { s with spi := { s.spi with transaction := none, returned := [s.selectByte] } }

end Sys2Proof.Machine
end

