-- ==== Sys2Proof/Machine/Dispatch.lean ====
section
/-! DEFINITION. The dispatch of the commands to their meanings: one arm per command. -/

namespace Sys2Proof.Machine

open Sys2Proof

/-- The effect of one command on everything but the queue of waiting commands. -/
def exec (i : Instr) (s : State) : Host.Outcome State Fault Refusal :=
  match i with
  | .hardReset pins => Sys2Proof.Machine.execHardReset pins s
  | .decoderEvent a b => Sys2Proof.Machine.execDecoderEvent a b s
  | .beltRunInputChange active => Sys2Proof.Machine.execBeltRunInputChange active s
  | .encoderLossTimerExpiry => Sys2Proof.Machine.execEncoderLossTimerExpiry s
  | .eyeRawChange lane blocked => Sys2Proof.Machine.execEyeRawChange lane blocked s
  | .eyeDebounceExpiry lane => Sys2Proof.Machine.execEyeDebounceExpiry lane s
  | .clampClosedEdge select => Sys2Proof.Machine.execClampClosedEdge select s
  | .spreaderReadyRising => Sys2Proof.Machine.execSpreaderReadyRising s
  | .spreaderReadyFalling => Sys2Proof.Machine.execSpreaderReadyFalling s
  | .releasePulseExpiry => Sys2Proof.Machine.execReleasePulseExpiry s
  | .spreaderStuckTimerExpiry => Sys2Proof.Machine.execSpreaderStuckTimerExpiry s
  | .batchCloseInputActive => Sys2Proof.Machine.execBatchCloseInputActive s
  | .holdInputChange active => Sys2Proof.Machine.execHoldInputChange active s
  | .dischargeDone stacker => Sys2Proof.Machine.execDischargeDone stacker s
  | .bladePulseExpiry => Sys2Proof.Machine.execBladePulseExpiry s
  | .settleTimerExpiry => Sys2Proof.Machine.execSettleTimerExpiry s
  | .offLineTimerExpiry => Sys2Proof.Machine.execOffLineTimerExpiry s
  | .sendAttemptStart => Sys2Proof.Machine.execSendAttemptStart s
  | .lostContention pos => Sys2Proof.Machine.execLostContention pos s
  | .transmitFailure pos => Sys2Proof.Machine.execTransmitFailure pos s
  | .transmitCompletion => Sys2Proof.Machine.execTransmitCompletion s
  | .frameAbandoned bits => Sys2Proof.Machine.execFrameAbandoned bits s
  | .receivedFrameEnd bits => Sys2Proof.Machine.execReceivedFrameEnd bits s
  | .readStatus => Sys2Proof.Machine.execReadStatus s
  | .readFaults => Sys2Proof.Machine.execReadFaults s
  | .ackFaults kinds => Sys2Proof.Machine.execAckFaults kinds s
  | .readTally n => Sys2Proof.Machine.execReadTally n s
  | .readImage offset count => Sys2Proof.Machine.execReadImage offset count s
  | .writeConfig offset data => Sys2Proof.Machine.execWriteConfig offset data s
  | .validate => Sys2Proof.Machine.execValidate s
  | .join => Sys2Proof.Machine.execJoin s
  | .leave => Sys2Proof.Machine.execLeave s
  | .stopLine => Sys2Proof.Machine.execStopLine s
  | .resume => Sys2Proof.Machine.execResume s
  | .closeStack stacker => Sys2Proof.Machine.execCloseStack stacker s
  | .clearRestart => Sys2Proof.Machine.execClearRestart s
  | .unknownCommand code => Sys2Proof.Machine.execUnknownCommand code s
  | .transactionCutShort active => Sys2Proof.Machine.execTransactionCutShort s active
  | .mediumBecomesIdle idle => Sys2Proof.Machine.execMediumBecomesIdle s idle

end Sys2Proof.Machine
end

