-- ==== Sys2Proof/Machine/Step.lean ====
section
/-! DEFINITION. The step: the command at the front of the queue is taken; with no command waiting, one millisecond
passes. -/

namespace Sys2Proof.Machine

open Sys2Proof

/-- One millisecond of the time base with no command waiting (R12; notes/assumptions/3.md). -/
def State.tick (s : State) : State := { s with timeBase := s.timeBase + 1 }

/-- The command at the front of the queue is run with the queue's rest. -/
def step (s : State) : Host.Outcome State Fault Refusal :=
  match s.pending with
  | [] => .next s.tick
  | c :: rest => exec c { s with pending := rest }

/-- The state with the command that a table word spells put at the front of the queue. -/
def State.withFetchWord (s : State) (nbits w : Nat) : State :=
  match decodeTableWord nbits w with
  | some c => { s with pending := c :: s.pending }
  | none => s

end Sys2Proof.Machine
end

