-- ==== Sys2Proof/Safety.lean ====
section
/-! DEFINITION. The terms in which claims about the FL6 are put: the laws that the manual states of the part's state,
each as a property of one state, and a few words of the rules (the quarter of the encoder period, an answered command,
the bytes of the medium) said once. -/

namespace Sys2Proof.Machine

open Sys2Proof

/-! ### Words of the rules -/

/-- The quarter of the encoder period that a phase pair stands for, counted in the forward direction (R1). -/
def quarter (a b : Bool) : Fin 4 :=
  match a, b with
  | false, false => 0
  | true, false => 1
  | true, true => 2
  | false, true => 3

/-- The state `t`, to which a command of `n` argument bytes taken in state `s` has led, with the bytes the part returns:
the status byte as select went active, 00h on each argument byte, and the bytes given, the result code first (R181). -/
def answered (s t : State) (n : Nat) (bytes : List Byte) : State :=
  { t with
    spi := { t.spi with
      transaction := none
      returned := s.spi.transaction.getD s.statusByte :: (List.replicate n 0 ++ bytes) } }

/-- The state after an advance of d mm: a travel advance is given for d other than 0 only (R4, R5). -/
def State.moved (s : State) (d : Int) : State := if d = 0 then s else s.travelAdvance d

/-- A travel counter after an advance of d mm, held within 0..65535 (R44, R97, R108, R153). -/
def heldSum (n : Nat) (d : Int) : Nat := if (n : Int) + d < 0 then 0 else if 65535 < (n : Int) + d then 65535 else ((n : Int) + d).toNat

/-- The state with the encoder-loss timer running from its full length (R8). -/
def State.lossTimerFull (s : State) : State :=
  { s with travel := { s.travel with lossTimer := .running (10 * Image.byte s.image 0x006) s.timeBase } }

/-- An address a station may bear (00_scope, R62). -/
def isAddress (a : Nat) : Prop := 1 ≤ a ∧ a ≤ 15

/-- The halt set with an address added, and the first-halt record captured where the set was empty (R62, R63). -/
def withHalt (c : StationControl) (a reason : Nat) (tag : Option Tag) : StationControl :=
  { c with
    haltSet := c.haltSet ||| BitVec.ofNat 16 (2 ^ a)
    firstHalt := if c.haltSet = 0 then some ⟨a, reason, tag⟩ else c.firstHalt }

/-- The halt set with an address removed, and the first-halt record re-armed where the set has become empty (R62,
R63). -/
def withoutHalt (c : StationControl) (a : Nat) : StationControl :=
  let left := c.haltSet &&& ~~~ BitVec.ofNat 16 (2 ^ a)
  { c with haltSet := left, firstHalt := if left = 0 then none else c.firstHalt }

/-- The station with a waiting frame of no age entered in its queue, at the place of its kind (R39, R40). -/
def State.queued (s : State) (n : Notice) : State :=
  { s with port := { s.port with queue := insertSlot ⟨n, 0, false⟩ s.port.queue } }

/-- The port reads frames and follows none of its own: the medium is idle, or another station's frame goes on after an
attempt of this station's that `failed` or lost contention (R30, R46). -/
def State.reading (s : State) (failed : Bool) : Prop :=
  s.port.active = true ∧ (s.port.medium = .following failed ∨ (s.port.medium = .idle ∧ failed = false))

/-- The bits are those of another station's frame, whole, that passes the checks of R46 and carries the notice `n`
from address `a`. -/
def carries (bits : List Bool) (a : Nat) (n : Notice) : Prop :=
  let ident : Byte := BitVec.ofNat 8 (n.code * 16 + a)
  isAddress a ∧ noticeOf n.code n.bytes = some n
    ∧ follow bits = .ended ⟨ident, n.bytes, frameCheck (coveredBits ident n.bytes)⟩

/-- The fields of a notice lie within what its layout can carry (R188). -/
def Notice.fits : Notice → Prop
  | .halt r t => r < 256 ∧ (∀ x, t = some x → x.origin ≠ 0)
  | .resume => True
  | .loss _ _ _ => True
  | .pass _ p _ _ l st => p < 16 ∧ l < 65536 ∧ st.age < 1024
  | .drop _ p _ _ l st => p < 16 ∧ l < 65536 ∧ st.age < 1024
  | .hole _ h l st => h < 65536 ∧ l < 65536 ∧ st.age < 1024
  | .present r c s _ _ => r < 256 ∧ c < 8 ∧ s < 65536

/-! ### The laws -/

/-- What ties the station state to the image, the frozen flag, the departure, the settle timer and the lockout cause
(R51 to R53, R55, R69, R183). -/
def Standing (s : State) : Prop :=
  s.spi.image.length = 320
  ∧ (s.spi.frozen = true ↔ s.control.state = .joining ∨ s.control.state = .running ∨ s.control.state = .lockout)
  ∧ (s.control.departure = true → s.control.state = .configured)
  ∧ (s.control.settleTimer ≠ .stopped ↔ s.control.state = .joining)
  ∧ (s.control.lockoutCause ≠ none ↔ s.control.state = .lockout)
  ∧ (s.control.state ≠ .unconfigured → Image.firstFailure s.image = none)

/-- The halt set's laws: empty off the line, addresses 1..15, the first-halt record present exactly while the set is
not empty, the own halt's reason present exactly while the own address is a member, and the announcement state of R67
(R62, R63, R65, R67). -/
def HaltLaw (s : State) : Prop :=
  (s.onLine = false → s.control.haltSet = 0)
  ∧ s.control.haltSet.getLsbD 0 = false
  ∧ (s.control.firstHalt ≠ none ↔ s.control.haltSet ≠ 0)
  ∧ (s.control.ownHalt ≠ none ↔ s.control.haltSet.getLsbD (Image.address s.image) = true)
  ∧ (s.onLine = false → s.control.departure = false → s.control.queued = none)
  ∧ (s.control.owed ≠ none → s.control.queued ≠ none ∧ s.control.owed ≠ s.control.queued)

/-- The line port's laws: active on the line and in a departure and else at its reset values, at most 8 frames in the
order of their kinds, at most one in send, and off-line exactly at 16 failures (R29, R30, R36, R38, R39, R43). -/
def PortLaw (s : State) : Prop :=
  (s.port.active = true ↔ s.onLine = true ∨ s.control.departure = true)
  ∧ (s.port.active = false → s.port = LinePort.inactive)
  ∧ s.port.queue.length ≤ 8
  ∧ s.port.queue.Pairwise (fun x y => x.notice.code ≤ y.notice.code)
  ∧ (s.port.queue.filter (·.inSend)).length = (if s.port.medium = .sending then 1 else 0)
  ∧ s.port.failures ≤ 16
  ∧ (s.port.offLine = true ↔ s.port.failures = 16)
  ∧ (s.port.offLine = true → s.port.medium ≠ .sending)
  ∧ (s.port.offLine = true ↔ s.port.offLineTimer ≠ .stopped)

/-- A HOLE frame. -/
def Slot.isHole (x : Slot) : Bool := x.notice.code == 6

/-- The belt map's and the hole unit's laws: at most 24 stretches, at most one of them an own hole, with a fit exactly
while there is one; at most one HOLE in the queue, and, on the line, one exactly while the frame state is CURRENT or
ABANDONED (R39, R41, R126, R128, R141). -/
def HoleLaw (s : State) : Prop :=
  s.feed.map.length ≤ 24
  ∧ (s.feed.map.filter (fun x => x.kind == .ownHole)).length = (if s.hole.fit = none then 0 else 1)
  ∧ (s.port.queue.filter Slot.isHole).length ≤ 1
  ∧ (s.onLine = true → (s.hole.frame ≠ .none ↔ s.port.queue.any Slot.isHole = true))
  ∧ (s.onLine = false → s.hole.frame = .none)

/-- The capacities and ranges of the role blocks and the fault unit (R71, R121, R128, R138, R153, R158, R163, R168,
R169, R172, and the eye channel of 6.1). -/
def Capacities (s : State) : Prop :=
  s.tracker.entries.length ≤ 32
  ∧ s.feed.queue.length ≤ 2
  ∧ s.feed.map.length ≤ 24
  ∧ s.feed.patience ≤ 65535
  ∧ s.sort.actions.length ≤ 16
  ∧ s.sort.tally.length ≤ 16
  ∧ s.sort.runout ≤ 65535
  ∧ s.sort.gapCounter ≤ 65535
  ∧ (∀ k : Fin 16, s.faults.counts[k] ≤ 255)
  ∧ (∀ k : Lane, (s.eyes.get k).losses ≤ 15)

/-- The stackers' law of R161: a collecting stacker holds nothing back and fewer pieces than the target of its stack
profile, and a discharging one holds at most 3 back; off the line every stacker is empty (R170). -/
def StackerLaw (s : State) : Prop :=
  (∀ c : StackerNo,
    let k := s.sort.stackers.get c
    (k.discharging = false → k.pre.count = 0 ∧ (k.stack.count = 0 ∨ k.stack.count < targetOf s.image k.stack.profile))
    ∧ (k.discharging = true → k.stack.count = 0 ∧ k.pre.count ≤ 3))
  ∧ (s.onLine = false → s.sort.stackers = .all .cleared)

/-- The countdowns of the blade firings that a list holds. -/
def bladeCountdowns (l : List Action) : List Int := (l.filter fun a => a.kind == .fireBlade).map (·.countdown)

/-- The action list's law of R155: at most 16 actions, any two blade firings at least the blade recovery apart; and
every action still to come (R159), its countdown a distance of 16 bits (00_scope, Widths and saturation), with none off
the line (R170). -/
def ActionLaw (s : State) : Prop :=
  s.sort.actions.length ≤ 16
  ∧ (bladeCountdowns s.sort.actions).Pairwise
      (fun a b => a + (Image.bladeRecovery s.image : Int) ≤ b ∨ b + (Image.bladeRecovery s.image : Int) ≤ a)
  ∧ (∀ a ∈ s.sort.actions, 0 < a.countdown ∧ a.countdown ≤ 32767)
  ∧ (s.onLine = false → s.sort.actions = [])

/-- The expectation list's laws: at most 32 entries, in list order, no two of one tag, tolerances of at most 2047 mm
(R71, R72, R76). -/
def ListLaw (s : State) : Prop :=
  s.tracker.entries.length ≤ 32
  ∧ s.tracker.entries.Pairwise (fun a b => a.before b = true)
  ∧ s.tracker.entries.Pairwise (fun a b => a.piece.tag ≠ b.piece.tag)
  ∧ (∀ e ∈ s.tracker.entries, e.early ≤ 2047 ∧ e.late ≤ 2047 ∧ e.placing < s.tracker.nextPlacing)

/-- Off the line every role block and the travel unit rest at their cleared values (R7, R8, R11, R94, R120, R140,
R141, R170). -/
def AtRest (s : State) : Prop :=
  s.onLine = false →
    s.tracker = .cleared ∧ s.feed = .cleared s.feed.spreader ∧ s.hole = .cleared
    ∧ s.sort = .cleared s.sort.runout s.sort.tally
    ∧ s.travel.fraction = 0 ∧ s.travel.lost = false ∧ s.travel.lossTimer = .stopped

/-- The moves between station states, each with the commands that can make it (chapter 4, table of station states;
R51 to R55, R68). -/
def mayMove (c : Instr) (x y : StationState) : Prop :=
  match c with
  | .hardReset _ => y = .unconfigured
  | .validate => (x = .unconfigured ∨ x = .configured) ∧ (y = .unconfigured ∨ y = .configured)
  | .writeConfig _ _ => x = .configured ∧ y = .unconfigured
  | .join => x = .configured ∧ y = .joining
  | .settleTimerExpiry => x = .joining ∧ y = .running
  | .transmitFailure _ => x = .joining ∧ y = .lockout
  | .receivedFrameEnd _ => x = .joining ∧ y = .lockout
  | .leave => (x = .joining ∨ x = .running) ∧ y = .configured
  | _ => False

/-- The commands that can draw from the sequence counter: a clamp, a spreader rising, the edges and the advances at
which a stray is adopted (R18, R19). -/
def mayDraw (c : Instr) : Prop :=
  match c with
  | .clampClosedEdge _ | .spreaderReadyRising | .decoderEvent _ _ | .eyeRawChange _ _ | .eyeDebounceExpiry _ => True
  | _ => False

end Sys2Proof.Machine
end

