-- ==== Sys2Proof/Certificates/Slice0/Obligations.lean ====
section
/-! DEFINITION. The statements for the provers. Each names the rules it formalises; a clause that rests on a choice of
the model's names its entry in notes/assumptions. Levels, fields and arithmetic are written out; the words of
Safety.lean (`answered`, `withHalt`, `carries` and the laws) are used where a rule uses one word for them. That the
bytes the processor port returns are held in the state is the model's choice (notes/assumptions/11.md), and so is the time base at
a timer's expiry (notes/assumptions/3.md). -/

open Sys2Proof Sys2Proof.Machine

/-! ### The step and hard reset -/

/-- The command at the front of the queue is run on the state with the queue's rest; with no command waiting one
millisecond passes (the model's choices, notes/assumptions/1.md and 3.md). -/
def Obligations.StepTakesFront : Prop :=
  (∀ (c : Instr) (rest : List Instr) (s : State), s.pending = c :: rest → step s = exec c { s with pending := rest })
  ∧ (∀ s : State, s.pending = [] → step s = .next { s with timeBase := s.timeBase + 1 })

/-- Every block's values after hard reset (R51 with R1, R2, R7, R11, R12, R18, R29, R96, R120, R140, R141, R170, R171,
R180, R183), with every output inactive. The model's choices here: the waiting commands stay (notes/assumptions/1.md),
the inactive port rests at a busy medium (9.md), the route line held inactive shows no route (13.md), the tag last
dropped is none (17.md), and the bytes of a transaction are none (11.md). A transaction in progress ends (R181). -/
def Obligations.HardResetValues : Prop :=
  ∀ (pins : Pins) (s : State), ∃ t : State, exec (.hardReset pins) s = .next t
    ∧ t.timeBase = 0
    ∧ t.travel = ⟨pins.phaseA, pins.phaseB, 0, 0, pins.beltRun, false, .stopped⟩
    ∧ (∀ k : Lane, t.eyes.get k
        = ⟨pins.eyesBlocked.getLsbD k.val, pins.eyesBlocked.getLsbD k.val, .normal, 0, 0, 0, .stopped⟩)
    ∧ t.port = ⟨false, .busy, [], 0, false, .stopped⟩
    ∧ t.control = ⟨.unconfigured, false, none, true, pins.hold, 0, none, none, none, none, .stopped, 0⟩
    ∧ t.tracker.entries = [] ∧ (∀ k : Lane, t.tracker.orphans.get k = none) ∧ t.tracker.adopted = []
    ∧ t.feed = ⟨[], false, .waiting, pins.spreaderReady, .stopped, .stopped, none, 0, false, []⟩
    ∧ t.hole = ⟨none, .none⟩
    ∧ t.sort.actions = [] ∧ t.sort.route = .runout ∧ t.sort.lastRoute = .runout
    ∧ t.sort.gapCounter = 65535 ∧ t.sort.entryGap = 65535 ∧ t.sort.bladeTimer = .stopped
    ∧ (∀ c : StackerNo, t.sort.stackers.get c
        = ⟨false, ⟨0, none, none, none, false, false⟩, ⟨0, none, none, none, false, false⟩, false⟩)
    ∧ t.sort.runout = 0 ∧ t.sort.tally = []
    ∧ (∀ k : Fin 16, t.faults.counts[k] = 0) ∧ t.faults.pending = 0 ∧ t.faults.first = none ∧ t.faults.more = false
    ∧ (∀ k : FaultKind, t.faults.policyFor k
        = ⟨false, if k = .eyeStuck ∨ k = .encoder ∨ k = .listFull ∨ k = .lineBus then .hold else .note⟩)
    ∧ t.spi = ⟨List.replicate 320 0, false, none, []⟩
    ∧ t.lineStop = false ∧ t.clampEnable = false ∧ t.release = false ∧ t.blade = false ∧ t.routeLine = none
    ∧ (∀ c : StackerNo, t.discharge c = false) ∧ t.attention = false
    ∧ t.pending = s.pending

/-- The state after hard reset, at every level of the input lines, meets every law that the steps keep; `State.reset` is
the one with every input inactive (the model's choice, notes/assumptions/2.md). The values compared by AtRest include
the tag last dropped, none at reset (17.md), and the placing counter, 0 at reset (22.md). -/
def Obligations.ResetMeetsLaws : Prop :=
  State.reset = State.afterReset ⟨false, false, false, false, false, 0⟩
  ∧ ∀ pins : Pins,
    let s := State.afterReset pins
    Standing s ∧ HaltLaw s ∧ PortLaw s ∧ HoleLaw s ∧ Capacities s ∧ StackerLaw s ∧ ActionLaw s ∧ ListLaw s ∧ AtRest s

/-! ### Travel (chapter 1) -/

/-- A decoder event. Off the line it changes the held pair and the encoder count alone: one step forward round the
quarters adds one, one step back subtracts one, with wrap, and a double change does not count (R1, R2, R3). On the line
a count changes the fraction to the remainder and gives an advance of the floor (R4, R5, R6), and restarts a running
encoder-loss timer (R8). A double change takes neither. While ENCODER LOST holds, a count first ends it, with what a
park end brings at that event (R10, R61, R134; that it comes before the count's own advance is the model's reading,
notes/assumptions/18.md), and restarts the timer if the belt-run input is active. -/
def Obligations.DecoderEvents : Prop :=
  (∀ (s : State) (a b : Bool), s.onLine = false →
     let held := quarter s.travel.phaseA s.travel.phaseB
     exec (.decoderEvent a b) s = .next { s with
       travel := { s.travel with
         phaseA := a, phaseB := b
         count := if quarter a b = held + 1 then s.travel.count + 1
           else if quarter a b + 1 = held then s.travel.count - 1 else s.travel.count } })
  ∧ (∀ (s : State) (a b : Bool), s.onLine = true →
     let held := quarter s.travel.phaseA s.travel.phaseB
     let paired := { s with travel := { s.travel with phaseA := a, phaseB := b } }
     (quarter a b = held + 2 → exec (.decoderEvent a b) s = .next paired)
     ∧ ∀ forward : Bool, quarter a b = held + (if forward then 1 else 3) →
       let n := if forward then s.travel.count + 1 else s.travel.count - 1
       let counted := { paired with travel := { paired.travel with count := n } }
       let sum (u : State) : Int :=
         if forward then (u.travel.fraction : Int) + Image.step u.image else (u.travel.fraction : Int) - Image.step u.image
       let advanced (u : State) : State :=
         State.moved { u with travel := { u.travel with fraction := (sum u % 256).toNat } } (sum u / 256)
       (s.travel.lost = false →
         let u := advanced counted
         exec (.decoderEvent a b) s = .next (if u.travel.lossTimer = .stopped then u else u.lossTimerFull))
       ∧ (s.travel.lost = true →
         let back := { counted with travel := { counted.travel with lost := false } }
         let u := advanced (if back.parked then back else back.evalDrop)
         exec (.decoderEvent a b) s = .next (if u.travel.beltRun then u.lossTimerFull else u)))

/-- The belt-run input's changes start and stop the encoder-loss timer (R8), and the timer's expiry begins ENCODER LOST:
condition, park with the sort unit's part of a park begin, degraded marks, and fault ENCODER with the encoder count (R9,
R61, R108, R114, R160). A level that does not change, and an expiry of a stopped timer, are nothing
(notes/assumptions/5.md). -/
def Obligations.BeltRunAndEncoderLoss : Prop :=
  ∀ s : State,
    (∀ active : Bool, exec (.beltRunInputChange active) s = .next
      (if active = s.travel.beltRun then s
       else { s with
         travel := { s.travel with
           beltRun := active
           lossTimer :=
             if active = false then .stopped
             else if s.onLine = true ∧ s.travel.lost = false then .running (10 * Image.byte s.image 0x006) s.timeBase
             else s.travel.lossTimer } }))
    ∧ (s.travel.lossTimer = .stopped → exec .encoderLossTimerExpiry s = .next s)
    ∧ (∀ n start : Nat, s.travel.lossTimer = .running n start →
      exec .encoderLossTimerExpiry s = .next (State.occur
        { s with
          timeBase := max s.timeBase (start + n)
          travel := { s.travel with lost := true, lossTimer := .stopped }
          tracker := s.tracker.degrade
          sort := if s.parked = false ∧ s.role = some .sort then
              { s.sort with actions := [], route := .runout, lastRoute := .runout } else s.sort }
        ⟨.encoder, none, none, s.travel.count⟩))

/-- A travel advance of d mm (R6). Every distance of the eyes, the slots, the tracker and the sort unit is moved by d
and held in its range, the sort unit performs the actions that come due on forward travel, no entry, orphan or adopted
passage enters or leaves by the move, and the rest of the station does not change (R44, R83, R97, R108, R114, R153,
R159); a passage's travel that has reached 65535 stays so (R108). At a CHECK or SORT station reverse travel does no more;
forward travel then tests the eyes for STUCK, adopts strays and closes windows, in the order that is the model's choice
(notes/assumptions/4.md), and does no more where none of these comes about (R84, R98, R117). The STUCK test there: a
blocked NORMAL or SUSPECT eye whose blocked-run is above the stuck length becomes STUCK, keeping its counts, with EYE
STUCK of the lane, the blocked-run and the tag of the entry or adopted passage whose blocked set holds the lane (R98);
the lane then leaves its record with the stuck mark, as PassageEndSendsPass gives it (R113); that the occurrence, with
the park it may begin, comes before this is the model's choice (30.md). Any other eye is left as it is. -/
def Obligations.AdvanceMovesDistances : Prop :=
  (∀ (s : State) (k : Lane), s.role = some .check ∨ s.role = some .sort →
    let e := s.eyes.get k
    let held (g : Passage) : Prop := g.blocked.getLsbD k.val = true
    let goes : Prop := e.blocked = true ∧ (e.state = .normal ∨ e.state = .suspect)
      ∧ Image.word s.image 0x00A < e.blockedRun
    let stuck (tag : Option Tag) : State :=
      State.unblock (State.occur { s with eyes := s.eyes.set k { e with state := .stuck } }
        ⟨.eyeStuck, tag, some k, BitVec.ofNat 16 e.blockedRun⟩) k true
    let noEntry (l : List Entry) : Prop := ∀ x ∈ l, ∀ g, x.passage = some g → ¬ held g
    (¬ goes → s.testStuck k = s)
    ∧ (∀ l x r g, goes → s.tracker.entries = l ++ x :: r → x.passage = some g → held g → noEntry l →
        s.testStuck k = stuck (some x.piece.tag))
    ∧ (∀ l a r, goes → noEntry s.tracker.entries → s.tracker.adopted = l ++ a :: r → held a.passage →
        (∀ b ∈ l, ¬ held b.passage) → s.testStuck k = stuck (some a.piece.tag))
    ∧ (goes → noEntry s.tracker.entries → (∀ a ∈ s.tracker.adopted, ¬ held a.passage) → s.testStuck k = stuck none))
  ∧ ∀ (s : State) (d : Int),
    let m := s.moveAll d
    let run (g : Passage) : Passage :=
      { g with travel := if 65535 ≤ g.travel then g.travel else heldSum g.travel d }
    let tracks : Prop := s.role = some .check ∨ s.role = some .sort
    (∀ k : Lane,
      let e := s.eyes.get k
      m.eyes.get k =
        if e.state = .off then e
        else if e.blocked then { e with blockedRun := heldSum e.blockedRun d }
        else { e with clearRun := heldSum e.clearRun d })
    ∧ m.port = { s.port with
        queue := s.port.queue.map fun (x : Slot) =>
          if x.notice.code = 4 ∨ x.notice.code = 5 ∨ x.notice.code = 6 then { x with age := heldSum x.age d } else x }
    ∧ (tracks →
        (m.tracker.entries).Perm (s.tracker.entries.map fun e =>
          { e with remaining := max (-32768) (min 32767 (e.remaining - d)), passage := e.passage.map run })
        ∧ m.tracker.nextPlacing = s.tracker.nextPlacing
        ∧ m.tracker.adopted = s.tracker.adopted.map (fun a => { a with passage := run a.passage })
        ∧ ∀ k : Lane, m.tracker.orphans.get k = (s.tracker.orphans.get k).map fun o =>
            { o with
              travel := heldSum o.travel d
              clear := o.clear.map fun c => { c with since := heldSum c.since d } })
    ∧ (¬ tracks → m.tracker = s.tracker)
    ∧ (s.role ≠ some .sort → m.sort = s.sort)
    ∧ (s.role = some .sort →
        let due := s.sort.actions.filter fun a => decide (a.countdown ≤ d)
        m.sort.gapCounter = heldSum s.sort.gapCounter d ∧ m.sort.entryGap = s.sort.entryGap
        ∧ m.sort.lastRoute = s.sort.lastRoute ∧ m.sort.stackers = s.sort.stackers
        ∧ m.sort.runout = s.sort.runout ∧ m.sort.tally = s.sort.tally
        ∧ (0 < d →
            m.sort.actions = (s.sort.actions.filter fun a => decide (d < a.countdown)).map
                (fun a => { a with countdown := a.countdown - d })
            ∧ m.sort.route = due.foldl
                (fun r a => match a.kind with | .setRoute code => code | .fireBlade => r) s.sort.route
            ∧ m.sort.bladeTimer = (if due.any fun a => a.kind == .fireBlade
                then .running (Image.byte s.image 0x0F9) s.timeBase else s.sort.bladeTimer))
        ∧ (d ≤ 0 → (∀ a ∈ s.sort.actions, -32768 ≤ a.countdown) →
            m.sort.route = s.sort.route ∧ m.sort.bladeTimer = s.sort.bladeTimer
            ∧ ((∀ a ∈ s.sort.actions, a.countdown - d ≤ 32767) →
                m.sort.actions = s.sort.actions.map fun a => { a with countdown := a.countdown - d })
            ∧ (∀ a ∈ s.sort.actions, (∀ b ∈ s.sort.actions, b.countdown ≤ a.countdown) → 32767 < a.countdown - d →
                m.sort.actions = s.sort.actions.map fun b =>
                  { b with countdown := b.countdown + (32767 - a.countdown) })))
    ∧ m.timeBase = s.timeBase ∧ m.travel = s.travel ∧ m.control = s.control ∧ m.feed = s.feed ∧ m.hole = s.hole
    ∧ m.faults = s.faults ∧ m.spi = s.spi ∧ m.pending = s.pending
    ∧ (tracks →
        (d ≤ 0 → s.travelAdvance d = m)
        ∧ (0 < d → s.travelAdvance d = ((lanes.foldl State.testStuck m).adoptPastGrace 4).closeWindows)
        ∧ (0 < d →
            (∀ k : Lane, (m.eyes.get k).blocked = true → (m.eyes.get k).state = .normal ∨ (m.eyes.get k).state = .suspect →
              (m.eyes.get k).blockedRun ≤ Image.word s.image 0x00A) →
            (∀ (k : Lane) (o : Orphan), m.tracker.orphans.get k = some o → o.travel ≤ Image.word s.image 0x00C) →
            (∀ e ∈ m.tracker.entries, e.passage = none → -(e.late : Int) ≤ e.remaining) →
            s.travelAdvance d = m))

/-! ### Eyes and tracker (chapters 5 and 6) -/

/-- A raw eye change starts or restarts the debounce timer of the frozen image, of a time above 0, and changes no level
(R15, R95); before the image is frozen, in states that meet the laws off the line, the level follows the raw input at
once and an eye that is not OFF has its runs set to 0, with nothing else changed (R15, R95). A debounce time of 0 takes
a change at once, as at an expiry (R15). A raw level that repeats is nothing (notes/assumptions/5.md). The debounce
timer's expiry at each eye state and role. A raw level equal to the level held changes nothing but the timer (R15); an
OFF eye changes only its level (R95); a STUCK eye becomes NORMAL with no edge handed on (R99, with the drop test of
R134); a NORMAL or SUSPECT eye gives an edge, which the role block takes (R102, R103, R109, R130, R131, R153). At a SORT
station the tracker takes it in RUNNING, and the gap measurement in JOINING and RUNNING; that the tracker is first is
the model's reading (notes/assumptions/14.md). The feed unit's part (R130): an edge is covered where the belt-eye
distance E lies in a PIECE interval on the lane, widened by the early fixed tolerance, and is then nothing; else a
growing PIECE stretch of length 0 enters the map at E, with no owner and no tag, or is LIST FULL in a full map, and
UNANNOUNCED follows, with the distance to the nearest such interval, 32767 at most and where there is none (that LIST
FULL comes first is the model's reading, 19.md). -/
def Obligations.EyeRawChangeAndDebounceExpiry : Prop :=
  (∀ (s : State) (k : Lane) (b : Bool),
     let e := s.eyes.get k
     (e.raw = b → exec (.eyeRawChange k b) s = .next s)
     ∧ (e.raw ≠ b → s.spi.frozen = true → Image.byte s.image 0x007 ≠ 0 →
         exec (.eyeRawChange k b) s = .next { s with
           eyes := s.eyes.set k { e with raw := b, debounce := .running (Image.byte s.image 0x007) s.timeBase } })
     ∧ (e.raw ≠ b → s.spi.frozen = false → e.blocked = e.raw → e.state ≠ .stuck → AtRest s → s.onLine = false →
         exec (.eyeRawChange k b) s = .next { s with
           eyes := s.eyes.set k
             (if e.state = .off then { e with raw := b, blocked := b }
              else { e with raw := b, blocked := b, clearRun := 0, blockedRun := 0 }) })
     ∧ (e.raw ≠ b → s.spi.frozen = true → Image.byte s.image 0x007 = 0 → e.debounce = .stopped →
         exec (.eyeRawChange k b) s = exec (.eyeDebounceExpiry k)
           { s with eyes := s.eyes.set k { e with raw := b, debounce := .running 0 s.timeBase } }))
  ∧ (∀ (s : State) (k : Lane) (n start : Nat),
     let e := s.eyes.get k
     let now := { s with timeBase := max s.timeBase (start + n) }
     let put (x : Eye) : State := { now with eyes := s.eyes.set k { x with debounce := .stopped } }
     let flipped := put { e with blocked := !e.blocked, clearRun := 0, blockedRun := 0 }
     e.debounce = .running n start →
       (e.raw = e.blocked → exec (.eyeDebounceExpiry k) s = .next (put e))
       ∧ (e.raw ≠ e.blocked → e.state = .off → exec (.eyeDebounceExpiry k) s = .next (put { e with blocked := !e.blocked }))
       ∧ (e.raw ≠ e.blocked → e.state = .stuck → exec (.eyeDebounceExpiry k) s = .next
           (put { e with blocked := !e.blocked, clearRun := 0, blockedRun := 0, state := .normal, losses := 0 }).evalDrop)
       ∧ (e.raw ≠ e.blocked → e.state = .normal ∨ e.state = .suspect →
           (s.role = some .check → exec (.eyeDebounceExpiry k) s = .next
             (if s.running = false then flipped
              else if e.blocked then flipped.unblock k false else flipped.trackLeading k))
           ∧ (s.role = some .feed → exec (.eyeDebounceExpiry k) s = .next
             (if e.blocked then (flipped.endGrowing k).evalDrop
              else if s.running then (flipped.feedLeading k).evalDrop else flipped))
           ∧ (s.role = some .sort → s.onLine = false → exec (.eyeDebounceExpiry k) s = .next flipped)
           ∧ (s.role = some .sort → s.onLine = true → e.blocked = true →
             let u := if s.running then flipped.unblock k false else flipped
             exec (.eyeDebounceExpiry k) s = .next { u with sort := { u.sort with gapCounter := 0 } })
           ∧ (s.role = some .sort → s.onLine = true → e.blocked = false →
             let u := if s.running then flipped.trackLeading k else flipped
             let clean : Prop := ∀ j : Lane, j ≠ k → (s.eyes.get j).state = .normal ∨ (s.eyes.get j).state = .suspect →
               (s.eyes.get j).blocked = false
             (clean → exec (.eyeDebounceExpiry k) s = .next { u with sort := { u.sort with entryGap := u.sort.gapCounter } })
             ∧ (¬ clean → exec (.eyeDebounceExpiry k) s = .next u))))
  ∧ (∀ (s : State) (k : Lane),
     let point : Int := Image.word s.image 0x016
     let wide : Int := Image.word s.image 0x012
     let near (x : Stretch) : Prop := x ∈ s.feed.map ∧ x.kind = .piece ∧ x.mask.getLsbD k.val = true
     let away (x : Stretch) : Int :=
       if point < x.head - wide then x.head - wide - point
       else if x.head + x.length + wide < point then point - (x.head + x.length + wide) else 0
     ((∃ x, near x ∧ x.head - wide ≤ point ∧ point ≤ x.head + x.length + wide) → s.feedLeading k = s)
     ∧ (∀ n : Int, n ≤ 32767 → (∀ x, near x → 0 < away x ∧ n ≤ away x) → (n = 32767 ∨ ∃ x, near x ∧ away x = n) →
         s.feedLeading k = State.occur
           (if s.feed.map.length < 24 then
              { s with
                feed := { s.feed with
                  map := insertStretch ⟨.piece, 0, none, BitVec.ofNat 4 (2 ^ k.val), point, 0, true, false⟩ s.feed.map } }
            else s.occur ⟨.listFull, none, some k, BitVec.ofInt 16 point⟩)
           ⟨.unannounced, none, some k, BitVec.ofInt 16 n⟩))

/-- A leading edge at the tracker is taken by the first of join, match and orphan that applies (R103 to R106, R82,
R101): the first passing entry of the lane within the skew gains the lane; else the first awaited entry of the lane that
is in window, or, while ENCODER LOST holds, whether it is in window or not (R90), becomes passing; else an orphan record
is made. The lane's eye takes a matched sighting; nothing else changes. A new passage or orphan is marked degraded
exactly while ENCODER LOST holds. An orphan that the lane holds already is first adopted as a stray, whatever its travel,
as StraysAdopted gives it (R106). -/
def Obligations.LeadingEdgeAtTracker : Prop :=
  ∀ (s : State) (k : Lane), ListLaw s →
    let bit : LaneSet := BitVec.ofNat 4 (2 ^ k.val)
    let joins (e : Entry) : Prop :=
      ∃ g, e.passage = some g ∧ e.piece.mask.getLsbD k.val = true ∧ g.seen.getLsbD k.val = false
        ∧ g.travel ≤ Image.byte s.image 0x00E
    let matched (e : Entry) : Prop :=
      e.passage = none ∧ e.piece.mask.getLsbD k.val = true
        ∧ (s.travel.lost = true ∨ (-(e.late : Int) ≤ e.remaining ∧ e.remaining ≤ e.early))
    let seen : Eye :=
      let e := s.eyes.get k
      if e.state = .normal ∨ e.state = .suspect then { e with state := .normal, losses := 0 } else e
    (∀ l r e g, s.tracker.entries = l ++ e :: r → joins e → e.passage = some g → (∀ x ∈ l, ¬ joins x) →
      s.trackLeading k = { s with
        eyes := s.eyes.set k seen
        tracker := { s.tracker with
          entries := l ++ { e with passage := some { g with seen := g.seen ||| bit, blocked := g.blocked ||| bit } } :: r } })
    ∧ (∀ l r e, s.tracker.entries = l ++ e :: r → (∀ x ∈ s.tracker.entries, ¬ joins x) → matched e →
      (∀ x ∈ l, ¬ matched x) →
      s.trackLeading k = { s with
        eyes := s.eyes.set k seen
        tracker := { s.tracker with entries := l ++ { e with passage := some ⟨bit, bit, 0, s.travel.lost, false⟩ } :: r } })
    ∧ ((∀ x ∈ s.tracker.entries, ¬ joins x ∧ ¬ matched x) →
      let orphaned (u : State) : State :=
        { u with
          tracker := { u.tracker with orphans := u.tracker.orphans.set k (some ⟨0, none, false, s.travel.lost⟩) } }
      (s.tracker.orphans.get k = none → s.trackLeading k = orphaned s)
      ∧ (∀ o, s.tracker.orphans.get k = some o → s.trackLeading k = orphaned (s.adopt k o)))

/-- Lanes that leave their record, and the end of a passage. At a trailing edge (R109), or with the stuck mark where the
lane's eye has become STUCK (R113), the lane leaves the blocked set of the first passage, else adopted passage, that
holds it, which ends where the set becomes empty; else a blocked orphan on the lane becomes clear, its travel its
measured length; else nothing changes. The end of an entry's passage (R110), with the eyes as they then stand: PARTIAL
with the unseen set, the NORMAL lanes of the mask not seen; short or long with LENGTH by the nominal length and tolerance
of a used profile, not on a degraded or stuck passage; long where stuck. A CHECK station adds a PASS with the measured
length, a SORT station takes a sighted piece with the degraded mark (R111, R112). A passage at a CHECK station seen on
every lane, not degraded or stuck, of a length within the tolerance, thus ends in a PASS alone. -/
def Obligations.PassageEndSendsPass : Prop :=
  (∀ (s : State) (k : Lane) (stuck : Bool), ListLaw s →
    let bit : LaneSet := BitVec.ofNat 4 (2 ^ k.val)
    let held (g : Passage) : Prop := g.blocked.getLsbD k.val = true
    let less (g : Passage) : Passage := { g with blocked := g.blocked &&& ~~~ bit, stuck := g.stuck || stuck }
    let noEntry (l : List Entry) : Prop := ∀ x ∈ l, ∀ g, x.passage = some g → ¬ held g
    (∀ l e r g, s.tracker.entries = l ++ e :: r → e.passage = some g → held g → noEntry l →
      (g.blocked ≠ bit → s.unblock k stuck = { s with
        tracker := { s.tracker with entries := l ++ { e with passage := some (less g) } :: r } })
      ∧ (g.blocked = bit → s.unblock k stuck =
        State.passageEnd { s with tracker := { s.tracker with entries := l ++ r } } e.piece (less g) 0))
    ∧ (∀ l a r, noEntry s.tracker.entries → s.tracker.adopted = l ++ a :: r → held a.passage →
      (∀ b ∈ l ++ r, ¬ held b.passage) →
      (a.passage.blocked ≠ bit → s.unblock k stuck = { s with
        tracker := { s.tracker with adopted := l ++ { a with passage := less a.passage } :: r } })
      ∧ (a.passage.blocked = bit → s.role = some .check → s.unblock k stuck = State.add
        { s with tracker := { s.tracker with adopted := l ++ r } }
        (.pass a.piece.tag a.piece.profile a.piece.mask
          { a.piece.flags with long := a.piece.flags.long || (less a.passage).stuck } a.passage.travel ⟨0, false⟩) 0)
      ∧ (a.passage.blocked = bit → s.role = some .sort → s.unblock k stuck = State.sortPiece
        { s with tracker := { s.tracker with adopted := l ++ r } }
        ⟨{ a.piece with
            measured := some a.passage.travel
            flags := { a.piece.flags with long := a.piece.flags.long || (less a.passage).stuck } },
          true, a.passage.degraded, 0⟩))
    ∧ (noEntry s.tracker.entries → (∀ a ∈ s.tracker.adopted, ¬ held a.passage) →
      (∀ o, s.tracker.orphans.get k = some o → o.clear = none → s.unblock k stuck = { s with
        tracker := { s.tracker with
          orphans := s.tracker.orphans.set k
            (some { o with clear := some ⟨o.travel, 0⟩, stuck := o.stuck || stuck }) } })
      ∧ ((∀ o, s.tracker.orphans.get k = some o → o.clear ≠ none) → s.unblock k stuck = s)))
  ∧ (∀ (s : State) (p : Piece) (g : Passage) (since : Nat) (unseen : LaneSet),
    (∀ j : Lane, unseen.getLsbD j.val = true ↔
      p.mask.getLsbD j.val = true ∧ g.seen.getLsbD j.val = false ∧ (s.eyes.get j).state = .normal) →
    let v := Image.profile s.image p.profile
    let checked : Prop := v.identified = true ∧ g.degraded = false ∧ g.stuck = false
    let short : Bool := decide (checked ∧ g.travel + v.tolerance < v.nominal)
    let long : Bool := decide (checked ∧ v.nominal + v.tolerance < g.travel)
    let flags : Flags := { p.flags with
      partialSight := p.flags.partialSight || decide (unseen ≠ 0)
      short := p.flags.short || short
      long := p.flags.long || long || g.stuck }
    let sight := if unseen = 0 then s
      else s.occur ⟨.partialSight, some p.tag, soleLane unseen, BitVec.ofNat 16 unseen.toNat⟩
    let told := if short = false ∧ long = false then sight
      else sight.occur ⟨.length, some p.tag, soleLane p.mask, BitVec.ofNat 16 g.travel⟩
    (s.role = some .check → s.passageEnd p g since =
      told.add (.pass p.tag p.profile p.mask flags g.travel ⟨0, false⟩) since)
    ∧ (s.role = some .sort → s.passageEnd p g since =
      told.sortPiece ⟨{ p with measured := some g.travel, flags := flags }, true, g.degraded, since⟩))
  ∧ ∀ (s : State) (k : Lane) (e : Entry) (g : Passage), s.role = some .check → ListLaw s → e ∈ s.tracker.entries →
    e.passage = some g → g.blocked = BitVec.ofNat 4 (2 ^ k.val) →
    (∀ x ∈ s.tracker.entries, x ≠ e → ∀ h, x.passage = some h → h.blocked.getLsbD k.val = false) →
    e.piece.mask &&& ~~~ g.seen = 0 → g.degraded = false → g.stuck = false →
    (let v := Image.profile s.image e.piece.profile
     v.identified = true → v.nominal ≤ g.travel + v.tolerance ∧ g.travel ≤ v.nominal + v.tolerance) →
    s.unblock k false = State.add
      { s with tracker := { s.tracker with entries := s.tracker.entries.filter fun x => x.piece.tag ≠ e.piece.tag } }
      (.pass e.piece.tag e.piece.profile e.piece.mask e.piece.flags g.travel ⟨0, false⟩) 0

/-- The close of a window (R84 to R87, R100). On forward travel every AWAITED entry below minus its late tolerance
closes, in list order. In RUNNING with a NORMAL eye in the mask it is lost: the entry leaves, LOSS is added, LOST
reported, and each NORMAL eye of the mask, lowest lane first, counts one loss held at 15, the dark count making it
SUSPECT with EYE SILENT; at a SORT station a lost batch close then goes to the sort unit. Else it passes unverified: a
CHECK station adds a PASS of the nominal length at the slot age of the late tolerance, a SORT station hands on an
unverified piece. The order within one lost close (LOSS added, LOST reported, then each EYE SILENT with the lowest lane
first, then the lost batch close) is the model's choice (notes/assumptions/6.md, State.closeLost): R85 names the owners
of these effects, and R179 allows either order of occurrences of one event. -/
def Obligations.WindowsClose : Prop :=
  (∀ s : State, s.closeWindows = (s.tracker.entries.filter fun e =>
      decide (e.passage = none ∧ e.remaining < -(e.late : Int))).foldl State.closeEntry s)
  ∧ ∀ (s : State) (l r : List Entry) (e : Entry), ListLaw s → s.tracker.entries = l ++ e :: r → e.passage = none →
    let p := e.piece
    let dark := Image.byte s.image 0x009
    let left := { s with tracker := { s.tracker with entries := l ++ r } }
    let seen (k : Lane) : Prop := p.mask.getLsbD k.val = true ∧ (s.eyes.get k).state = .normal
    let unverified : Piece := { p with flags := { p.flags with unverified := true } }
    let lost := (State.add left (.loss p.tag p.mask p.flags.batchClose) 0).occur
      ⟨.lost, some p.tag, soleLane p.mask, BitVec.ofInt 16 e.remaining⟩
    let counts (u : State) (k : Lane) : State :=
      let x := u.eyes.get k
      let n := min 15 (x.losses + 1)
      if p.mask.getLsbD k.val = false ∨ x.state ≠ .normal then u
      else if dark ≠ 0 ∧ n = dark then
        State.occur { u with eyes := u.eyes.set k { x with losses := n, state := .suspect } }
          ⟨.eyeSilent, some p.tag, some k, BitVec.ofNat 16 n⟩
      else { u with eyes := u.eyes.set k { x with losses := n } }
    let counted := ([0, 1, 2, 3] : List Lane).foldl counts lost
    (s.running = true → (∃ k, seen k) →
      s.closeEntry e = if s.role = some .sort ∧ p.flags.batchClose = true then counted.lostBatchClose p else counted)
    ∧ (s.running = false ∨ (∀ k, ¬ seen k) →
        (s.role = some .check → s.closeEntry e =
          State.add left (.pass p.tag p.profile p.mask unverified.flags p.nominal ⟨0, false⟩) e.late)
        ∧ (s.role = some .sort → s.closeEntry e =
          left.sortPiece ⟨{ unverified with measured := none }, false, false, 0⟩))

/-- The adoption of a stray (R117, R118, R18). Orphans past the grace are adopted one after another, the one with the
greatest travel first and the lowest lane among equals, each among those that remain, until none past the grace is left.
An orphan is adopted under a tag drawn for it, with STRAY and its travel as the detail; the orphans within the skew of it
leave with it and draw nothing. While one of them is blocked they make an adopted passage on their lanes; all clear, the
stray is handed on at once with the greatest t1 - t + m as its measured length and the least travel since a trailing
edge, as a PASS at a CHECK station and as a sighted piece at a SORT station. A lone orphan is stated apart. At a CHECK
station the trailing edge that leaves an adopted passage no blocked lane ends it with a PASS of its travel. -/
def Obligations.StraysAdopted : Prop :=
  ∀ (s : State) (k : Lane),
    let bit : LaneSet := BitVec.ofNat 4 (2 ^ k.val)
    let grace := Image.word s.image 0x00C
    let tag : Tag := ⟨BitVec.ofNat 8 (Image.address s.image), s.control.seq⟩
    let reported (travel : Nat) : State :=
      { s with control := { s.control with seq := s.control.seq + 1 } }.occur
        ⟨.stray, some tag, some k, BitVec.ofNat 16 travel⟩
    let stray (mask : LaneSet) (long : Bool) : Piece :=
      ⟨tag, 0, mask, (Image.profileZero s.image).nominal, none, ⟨false, true, false, false, long, false⟩⟩
    ((∀ (j : Lane) (o : Orphan), s.tracker.orphans.get j = some o → o.travel ≤ grace) → s.adoptPastGrace 4 = s)
    ∧ (∀ o : Orphan, s.tracker.orphans.get k = some o → grace < o.travel →
        (∀ j : Lane, j ≠ k → s.tracker.orphans.get j = none) → s.adoptPastGrace 4 = s.adopt k o)
    ∧ (∀ (o : Orphan) (n : Nat), s.tracker.orphans.get k = some o → grace < o.travel →
        (∀ j x, s.tracker.orphans.get j = some x → x.travel < o.travel ∨ (x.travel = o.travel ∧ k ≤ j)) →
        s.adoptPastGrace (n + 1) = (s.adopt k o).adoptPastGrace n)
    ∧ (∀ x, (s.adoptPastGrace 4).tracker.orphans.get k = some x → x.travel ≤ grace)
    ∧ (∀ (o : Orphan) (m b : LaneSet) (stuck degraded : Bool), s.tracker.orphans.get k = some o →
        let skew := Image.byte s.image 0x00E
        let merged (j : Lane) (x : Orphan) : Prop := s.tracker.orphans.get j = some x
          ∧ x.travel ≤ o.travel + skew ∧ o.travel ≤ x.travel + skew
        (∀ j : Lane, m.getLsbD j.val = true ↔ ∃ x, merged j x) →
        (∀ j : Lane, b.getLsbD j.val = true ↔ ∃ x, merged j x ∧ x.clear = none) →
        (stuck = true ↔ ∃ j x, merged j x ∧ x.stuck = true) →
        (degraded = true ↔ ∃ j x, merged j x ∧ x.degraded = true) →
        let u := reported o.travel
        let gone := { u.tracker with
          orphans := s.tracker.orphans.mapAt fun j x => if m.getLsbD j.val then none else x }
        (b ≠ 0 → s.adopt k o = { u with
          tracker := { gone with adopted := s.tracker.adopted ++ [⟨stray m stuck, ⟨m, b, o.travel, degraded, stuck⟩⟩] } })
        ∧ (∀ length since : Nat, b = 0 →
            (∃ j x c, merged j x ∧ x.clear = some c ∧ (length : Int) = (o.travel : Int) - x.travel + c.measured) →
            (∀ j x c, merged j x → x.clear = some c → (o.travel : Int) - x.travel + c.measured ≤ length) →
            (∃ j x c, merged j x ∧ x.clear = some c ∧ since = c.since) →
            (∀ j x c, merged j x → x.clear = some c → since ≤ c.since) →
            (s.role = some .check → s.adopt k o = State.add { u with tracker := gone }
              (.pass tag 0 m (stray m stuck).flags (min 65535 length) ⟨0, false⟩) since)
            ∧ (s.role = some .sort → s.adopt k o = State.sortPiece { u with tracker := gone }
              ⟨{ stray m stuck with measured := some (min 65535 length) }, true, degraded, since⟩)))
    ∧ (∀ o : Orphan, s.tracker.orphans.get k = some o → (∀ j : Lane, j ≠ k → s.tracker.orphans.get j = none) →
        let u := reported o.travel
        let gone := { u.tracker with orphans := s.tracker.orphans.set k none }
        (o.clear = none → s.adopt k o = { u with
          tracker := { gone with
            adopted := s.tracker.adopted ++ [⟨stray bit o.stuck, ⟨bit, bit, o.travel, o.degraded, o.stuck⟩⟩] } })
        ∧ (∀ c, o.clear = some c → c.measured ≤ 65535 → s.role = some .check →
            s.adopt k o = State.add { u with tracker := gone }
              (.pass tag 0 bit (stray bit o.stuck).flags c.measured ⟨0, false⟩) c.since))
    ∧ (∀ (o : Orphan) (m : LaneSet), s.tracker.orphans.get k = some o →
        (∀ j : Lane, m.getLsbD j.val = true ↔ ∃ x, s.tracker.orphans.get j = some x
          ∧ x.travel ≤ o.travel + Image.byte s.image 0x00E ∧ o.travel ≤ x.travel + Image.byte s.image 0x00E) →
        (∀ (j : Lane) (x : Orphan), s.tracker.orphans.get j = some x → x.clear = none ∧ x.stuck = false ∧ x.degraded = false) →
        let u := reported o.travel
        s.adopt k o = { u with
          tracker := { u.tracker with
            orphans := s.tracker.orphans.mapAt fun j x => if m.getLsbD j.val then none else x
            adopted := s.tracker.adopted ++ [⟨stray m false, ⟨m, m, o.travel, false, false⟩⟩] } })
    ∧ (∀ l a r, s.role = some .check → s.tracker.adopted = l ++ a :: r → a.passage.blocked = bit →
        (∀ x ∈ l, x.passage.blocked.getLsbD k.val = false) →
        (∀ e ∈ s.tracker.entries, ∀ g, e.passage = some g → g.blocked.getLsbD k.val = false) →
        s.unblock k false = State.add
          { s with tracker := { s.tracker with adopted := l ++ r } }
          (.pass a.piece.tag a.piece.profile a.piece.mask
            { a.piece.flags with long := a.piece.flags.long || a.passage.stuck } a.passage.travel ⟨0, false⟩) 0)

/-! ### Feed unit and hole unit (chapters 7 and 8) -/

/-- A clamp-closed edge (R122, R24, R23, R18): in RUNNING at a FEED station with fewer than 2 records it adds a record
at the end of the queue, with the profile the select lines choose and the next sequence, whether clamp enable is active
or not (R123); with 2 records it reports FEED with detail 1; in any other state it is nothing. -/
def Obligations.ClampClosedEdge : Prop :=
  ∀ (s : State) (select : BitVec 4),
    let p := if Image.profileUsed s.image select.toNat then select.toNat else 0
    let v := Image.profile s.image p
    let record : Piece :=
      ⟨⟨BitVec.ofNat 8 (Image.address s.image), s.control.seq⟩, p,
       match v.laneClass with
       | .full => Image.lanes s.image
       | .single => BitVec.ofNat 4 (2 ^ (Image.homeLane s.image - 1)),
       v.nominal, none, ⟨false, false, false, false, false, false⟩⟩
    (s.role = some .feed → s.running = true → s.feed.queue.length < 2 →
      exec (.clampClosedEdge select) s = .next { s with
        control := { s.control with seq := s.control.seq + 1 }
        feed := { s.feed with queue := s.feed.queue ++ [record] } })
    ∧ (s.role = some .feed → s.running = true → 2 ≤ s.feed.queue.length →
      exec (.clampClosedEdge select) s = .next (s.occur ⟨.feed, none, none, 1⟩))
    ∧ (s.role ≠ some .feed ∨ s.running = false → exec (.clampClosedEdge select) s = .next s)

/-- The spreader-ready input (R124): rising in WAITING at a RUNNING FEED station marks the head ready, after a record of
profile 0 and fault FEED with detail 2 where the queue is empty, and the drop test is evaluated (R134); falling returns
READY and CLEARING to WAITING. The level is held in every state. The batch-close input sets the latch of a FEED station
on the line (R25). An input that repeats its level is nothing (notes/assumptions/5.md). -/
def Obligations.SpreaderAndBatchInputs : Prop :=
  ∀ s : State,
    (s.feed.spreader = true → exec .spreaderReadyRising s = .next s)
    ∧ (s.feed.spreader = false → s.role ≠ some .feed ∨ s.running = false ∨ s.feed.handshake ≠ .waiting →
        exec .spreaderReadyRising s = .next { s with feed := { s.feed with spreader := true } })
    ∧ (s.feed.spreader = false → s.role = some .feed → s.running = true → s.feed.handshake = .waiting →
        s.feed.queue ≠ [] →
        exec .spreaderReadyRising s = .next
          (State.evalDrop { s with feed := { s.feed with spreader := true, ready := true, handshake := .ready } }))
    ∧ (s.feed.spreader = false → s.role = some .feed → s.running = true → s.feed.handshake = .waiting →
        s.feed.queue = [] →
        let tag : Tag := ⟨BitVec.ofNat 8 (Image.address s.image), s.control.seq⟩
        let u := State.occur
          { s with
            control := { s.control with seq := s.control.seq + 1 }
            feed := { s.feed with
              spreader := true
              queue := [⟨tag, 0, Image.lanes s.image, (Image.profileZero s.image).nominal, none,
                ⟨false, false, false, false, false, false⟩⟩] } }
          ⟨.feed, some tag, none, 2⟩
        exec .spreaderReadyRising s = .next
          (State.evalDrop { u with feed := { u.feed with ready := true, handshake := .ready } }))
    ∧ (s.feed.spreader = false → exec .spreaderReadyFalling s = .next s)
    ∧ (s.feed.spreader = true → exec .spreaderReadyFalling s = .next { s with
        feed := { s.feed with
          spreader := false
          handshake := .waiting
          ready := if s.feed.handshake = .ready then false else s.feed.ready
          stuckTimer := if s.feed.handshake = .clearing then .stopped else s.feed.stuckTimer } })
    ∧ exec .batchCloseInputActive s = .next
        (if s.onLine = true ∧ s.role = some .feed then { s with feed := { s.feed with batchLatch := true } } else s)

/-- The ends of the release pulse, the spreader stuck time, the blade pulse and the off-line period (R13, R14, R38,
R125): the timer is stopped; the release pulse starts the stuck timer where the handshake is CLEARING with the spreader
still ready; the stuck timer reports FEED with the tag last dropped and detail 3; the off-line period ends with the
failures at 0. The time base moves on to the expiry and an expiry of a stopped timer is nothing
(notes/assumptions/3.md). -/
def Obligations.TimerExpiries : Prop :=
  ∀ s : State,
    (s.port.offLineTimer = .stopped → exec .offLineTimerExpiry s = .next s) ∧
    (s.feed.releaseTimer = .stopped → exec .releasePulseExpiry s = .next s)
    ∧ (s.feed.stuckTimer = .stopped → exec .spreaderStuckTimerExpiry s = .next s)
    ∧ (s.sort.bladeTimer = .stopped → exec .bladePulseExpiry s = .next s)
    ∧ ∀ n start : Nat,
      let now := max s.timeBase (start + n)
      (s.port.offLineTimer = .running n start → exec .offLineTimerExpiry s = .next { s with
        timeBase := now
        port := { s.port with offLine := false, failures := 0, offLineTimer := .stopped } })
      ∧ (s.feed.releaseTimer = .running n start → exec .releasePulseExpiry s = .next { s with
        timeBase := now
        feed := { s.feed with
          releaseTimer := .stopped
          stuckTimer := if s.feed.handshake = .clearing ∧ s.feed.spreader = true
            then .running (10 * Image.byte s.image 0x01F) now else s.feed.stuckTimer } })
      ∧ (s.feed.stuckTimer = .running n start → exec .spreaderStuckTimerExpiry s = .next (State.occur
          { s with timeBase := now, feed := { s.feed with stuckTimer := .stopped } }
          ⟨.feed, s.feed.lastDropped, none, 3⟩))
      ∧ (s.sort.bladeTimer = .running n start → exec .bladePulseExpiry s = .next
          { s with timeBase := now, sort := { s.sort with bladeTimer := .stopped } })

/-- The drop test passes exactly when its four conditions hold (R133): the line allows it, no piece and no reservation
meets [-Gb, L + Ga] on a lane of the mask, every belt eye of the mask that is not OFF is clear for E + Gb, and the map
has room. The own hole takes no part. -/
def Obligations.DropTestConditions : Prop :=
  ∀ (s : State) (p : Piece),
    let v := Image.profile s.image p.profile
    s.dropTest p = true ↔
      (s.control.state = .running ∧ s.parked = false ∧ s.control.haltSet = 0)
      ∧ (∀ x ∈ s.feed.map, (x.kind = .piece ∨ x.kind = .reserved) → x.mask &&& p.mask ≠ 0 →
          ¬ (x.head ≤ (p.nominal : Int) + v.gapAfter ∧ -(v.gapBefore : Int) ≤ x.head + x.length))
      ∧ (∀ k : Lane, p.mask.getLsbD k.val = true → (s.eyes.get k).state ≠ .off →
          (s.eyes.get k).blocked = false ∧ Image.word s.image 0x016 + v.gapBefore ≤ (s.eyes.get k).clearRun)
      ∧ s.feed.map.length < 24

/-- A drop (R135, R25, R125, R149): release pulse started, handshake CLEARING, own stretch inserted at head position 0,
DROP added with the batch-close latch, latch cleared, head record gone, patience 0. An own hole is used up with its fit:
a HOLE of it that still waits is withdrawn, and one in send is abandoned. The port is active with room in its queue. -/
def Obligations.DropMade : Prop :=
  ∀ (s : State) (p : Piece) (rest : List Piece), s.role = some .feed → s.feed.handshake = .ready →
    s.feed.queue = p :: rest → s.dropTest p = true → s.port.active = true → s.port.queue.length < 8 →
    let own := Image.address s.image
    let map := insertStretch ⟨.piece, own, some p.tag, p.mask, 0, p.nominal, false, false⟩ s.feed.map
    let queue := insertSlot ⟨.drop p.tag p.profile p.mask s.feed.batchLatch p.nominal ⟨0, false⟩, 0, false⟩ s.port.queue
    let unused := map.filter fun x => x.kind ≠ .ownHole
    let dropped (map : List Stretch) (queue : List Slot) (hole : HoleUnit) : State :=
      { s with
        port := { s.port with queue := queue }
        hole := hole
        feed := { s.feed with
          releaseTimer := .running (Image.byte s.image 0x01E) s.timeBase
          handshake := .clearing
          lastDropped := some p.tag
          map := map
          batchLatch := false
          queue := rest
          ready := false
          patience := 0 } }
    ((∀ x ∈ s.feed.map, x.kind ≠ .ownHole) → s.evalDrop = dropped map queue s.hole)
    ∧ ((∃ x ∈ s.feed.map, x.kind = .ownHole) →
        (s.hole.frame ≠ .current → s.evalDrop = dropped unused queue { s.hole with fit := none })
        ∧ (s.hole.frame = .current → (∀ y ∈ s.port.queue, y.notice.code = 6 → y.inSend = false) →
            s.evalDrop = dropped unused (queue.filter fun y => y.notice.code ≠ 6) ⟨none, .none⟩)
        ∧ (s.hole.frame = .current → (∃ y ∈ s.port.queue, y.notice.code = 6) →
            (∀ y ∈ s.port.queue, y.notice.code = 6 → y.inSend = true) →
            s.evalDrop = dropped unused queue ⟨none, .abandoned⟩))

/-- The hole head is the least of the candidates that meets the four conditions of R142, and no hole is found exactly
where none does. -/
def Obligations.HoleHeadIsLeast : Prop :=
  ∀ (im : Image) (map : List Stretch) (mask : LaneSet) (h : Int),
    let good (a : Int) : Prop :=
      (Image.word im 0x01A : Int) ≤ a
      ∧ a + h ≤ Image.word im 0x018
      ∧ (a = Image.word im 0x01A ∨ ∃ x ∈ map, a = x.head + x.length + 1)
      ∧ ∀ x ∈ map, x.mask &&& mask ≠ 0 → ¬ (x.head ≤ a + h ∧ a ≤ x.head + x.length)
    (∀ a : Int, holeHead im map mask h = some a ↔ good a ∧ ∀ b, good b → a ≤ b)
    ∧ (holeHead im map mask h = none ↔ ∀ a, ¬ good a)

/-- A travel advance at a FEED station. Every stretch moves by d and is held in 16 bits, a growing one takes its eye's
blocked-run, and on forward travel one whose tail has passed below 0 leaves (R127, R131). On forward travel an own hole
whose h is below -Gb is spent: it leaves with its fit, a waiting HOLE of it is withdrawn and one in send abandoned, and
patience is 0 (R150); an abandoned HOLE that waits again is withdrawn (R151). The eyes' STUCK tests, the drop test and,
on forward travel, the patience addition follow, in the order that is the model's choice (notes/assumptions/4.md). The
STUCK test at a FEED station: a blocked NORMAL or SUSPECT eye whose blocked-run is above the stuck length becomes STUCK,
keeping its counts, with EYE STUCK of the lane, no tag and the blocked-run (R98), and growing ends on the lane, the
length of its stretch kept (R131); that the occurrence comes first is the model's choice (30.md). Any other eye is left
as it is. -/
def Obligations.BeltMapAdvances : Prop :=
  (∀ (s : State) (k : Lane), s.role = some .feed →
    let e := s.eyes.get k
    let goes : Prop := e.blocked = true ∧ (e.state = .normal ∨ e.state = .suspect)
      ∧ Image.word s.image 0x00A < e.blockedRun
    (¬ goes → s.testStuck k = s)
    ∧ (goes →
        let u := State.occur { s with eyes := s.eyes.set k { e with state := .stuck } }
          ⟨.eyeStuck, none, some k, BitVec.ofNat 16 e.blockedRun⟩
        s.testStuck k = { u with
          feed := { u.feed with
            map := u.feed.map.map fun (x : Stretch) =>
              if x.growing = true ∧ x.mask.getLsbD k.val = true then { x with growing := false } else x } }))
  ∧ ∀ (s : State) (d : Int),
    let moved := s.feed.map.map fun x =>
      { x with
        head := max (-32768) (min 32767 (x.head - d))
        length :=
          match x.growing, soleLane x.mask with
          | true, some k => (s.eyes.get k).blockedRun
          | _, _ => x.length }
    let kept (l : List Stretch) : List Stretch := if 0 < d then l.filter fun x => decide (0 ≤ x.head + x.length) else l
    let mapped := { s with feed := { s.feed with map := kept moved } }
    let noHoleSent : Prop := ∀ y ∈ s.port.queue, y.notice.code = 6 → y.inSend = false
    let holeSent : Prop := (∃ y ∈ s.port.queue, y.notice.code = 6) ∧ ∀ y ∈ s.port.queue, y.notice.code = 6 → y.inSend = true
    let noHoles := s.port.queue.filter fun y => y.notice.code ≠ 6
    (s.hole.frame ≠ .abandoned → (0 < d → ∀ x ∈ moved, x.kind = .ownHole → ∀ f, s.hole.fit = some f →
        (f.nominal : Int) + f.gapAfter ≤ x.head + x.length) →
      s.moveMap d = mapped)
    ∧ (s.hole.frame = .abandoned → (∀ x ∈ s.feed.map, x.kind ≠ .ownHole) →
        (holeSent → s.moveMap d = mapped)
        ∧ (noHoleSent → s.moveMap d =
            { mapped with port := { s.port with queue := noHoles }, hole := { s.hole with frame := .none } }))
    ∧ (∀ l x r f, moved = l ++ x :: r → x.kind = .ownHole → (∀ y ∈ l ++ r, y.kind ≠ .ownHole) → s.hole.fit = some f → 0 < d →
        x.head + x.length < (f.nominal : Int) + f.gapAfter →
        let spent (queue : List Slot) (frame : FrameState) : State :=
          { s with
            feed := { s.feed with map := kept (l ++ r), patience := 0 }
            hole := ⟨none, frame⟩
            port := { s.port with queue := queue } }
        (s.hole.frame = .none → s.moveMap d = spent s.port.queue .none)
        ∧ (s.hole.frame = .current → noHoleSent → s.moveMap d = spent noHoles .none)
        ∧ (s.hole.frame = .current → holeSent → s.moveMap d = spent s.port.queue .abandoned))
    ∧ (s.role = some .feed → s.travelAdvance d =
        if 0 < d then (lanes.foldl State.testStuck ((s.moveAll d).moveMap d)).evalDrop.addPatience d
        else ((s.moveAll d).moveMap d).evalDrop)

/-- Patience (R138, R139) and what it brings (R142, R143). After a forward advance of d mm a READY head that the line
would let drop and the belt would not adds d, held at 65535; any other head, and an empty queue, adds nothing. Patience
that has reached P with no own hole asks for a hole: none found, patience restarts from 0; found, the own hole enters
the map and its HOLE is announced; a full map refuses it with LIST FULL, and patience restarts from 0. While an
abandoned HOLE is in send nothing is asked (R151). -/
def Obligations.PatienceAsksForHole : Prop :=
  ∀ (s : State) (d : Int), 0 < d →
    (s.feed.queue = [] → s.addPatience d = s)
    ∧ ∀ (p : Piece) (rest : List Piece), s.feed.queue = p :: rest →
      let n := heldSum s.feed.patience d
      let v := Image.profile s.image p.profile
      let h := v.gapBefore + p.nominal + v.gapAfter
      let limit := Image.word s.image 0x01C
      let found := holeHead s.image s.feed.map p.mask (v.gapBefore + p.nominal + v.gapAfter)
      let waits := { s with feed := { s.feed with patience := n } }
      let waiting : Prop := s.feed.handshake = .ready ∧ s.control.state = .running ∧ s.parked = false
        ∧ s.control.haltSet = 0 ∧ s.dropTest p = false
      let held : Prop := ∃ x ∈ s.feed.map, x.kind = .ownHole
      (¬ waiting → s.addPatience d = s)
      ∧ (waiting → limit = 0 ∨ n < limit ∨ held → s.addPatience d = waits)
      ∧ (waiting → s.hole.frame = .abandoned → (∃ y ∈ s.port.queue, y.notice.code = 6) →
          (∀ y ∈ s.port.queue, y.notice.code = 6 → y.inSend = true) → s.addPatience d = waits)
      ∧ (waiting → 1 ≤ limit → limit ≤ n → ¬ held → s.hole.frame = .none →
          (found = none → s.addPatience d = { s with feed := { s.feed with patience := 0 } })
          ∧ (∀ a, found = some a → s.feed.map.length < 24 → s.port.active = true → s.port.queue.length < 8 →
              s.addPatience d = State.queued
                { waits with
                  feed := { waits.feed with
                    map := insertStretch ⟨.ownHole, Image.address s.image, none, p.mask, a, h, false, false⟩ s.feed.map }
                  hole := ⟨some ⟨v.gapBefore, p.nominal, v.gapAfter⟩, .current⟩ }
                (.hole p.mask a.toNat h ⟨0, false⟩))
          ∧ (∀ a, found = some a → 24 ≤ s.feed.map.length →
              let u := waits.occur ⟨.listFull, none, soleLane p.mask, BitVec.ofInt 16 a⟩
              s.addPatience d = { u with feed := { u.feed with patience := 0 } }))

/-- What a DROP or HOLE from a listed sender at offset o brings at a FEED station. A DROP (R129): ignored for o of 0 or
less; PEER cause 8 for a mask with no lane of this station, 9 for a tag of origin 0 or a nominal length above 6000;
LATE NOTICE where stale; ignored where its tail has passed the drop point; else a piece in the map, or LIST FULL. A HOLE
(R145): ignored for o of 0 or more; PEER cause 8, or 10 for a hole head above 32767 or a length above 8046; LATE NOTICE
where stale. Past these (R146), the sender's former reservation leaves the map; the HOLE is then ignored where its tail
has passed, or where it meets a reservation or the confirmed own hole on a common lane; it makes an unconfirmed own hole
that it meets yield (R147): its waiting HOLE withdrawn, the own hole and its fit gone, the reservation entered, patience
0; else it is entered as a reservation, or is LIST FULL. After a change of the map the drop test is evaluated (R134), and
the port waits for the medium to be idle (R30). -/
def Obligations.NoticesAtFeed : Prop :=
  ∀ (s : State) (bits : List Bool) (failed : Bool) (a : Nat) (o : Int) (m : LaneSet) (age : Nat) (stale : Bool),
    s.reading failed → s.onLine = true → s.role = some .feed → a ≠ Image.address s.image →
    Image.offsetOf s.image a = some o →
    let mask := m &&& Image.lanes s.image
    let waits := { s with port := { s.port with medium := .busy } }
    let held (x : Int) : Int := max (-32768) (min 32767 x)
    let mapped (u : State) (l : List Stretch) : State := { u with feed := { u.feed with map := l } }
    let tested (t : State) : Host.Outcome State Fault Refusal := .next (if t.feed.map = s.feed.map then t else t.evalDrop)
    let told (o : Occurrence) : Host.Outcome State Fault Refusal := tested (waits.occur o)
    let peer (tag : Option Tag) (cause code : Nat) : Host.Outcome State Fault Refusal :=
      told ⟨.peer, tag, none, BitVec.ofNat 16 (cause * 256 + (code * 16 + a))⟩
    (∀ t p b l, carries bits a (.drop t p m b l ⟨age, stale⟩) →
      let tag := if 1 ≤ t.origin.toNat ∧ t.origin.toNat ≤ 15 then some t else none
      let h := held (o - age)
      let x : Stretch := ⟨.piece, a, some t, mask, h, l, false, false⟩
      (o ≤ 0 → exec (.receivedFrameEnd bits) s = .next waits)
      ∧ (0 < o → mask = 0 → exec (.receivedFrameEnd bits) s = peer tag 8 5)
      ∧ (0 < o → mask ≠ 0 → t.origin = 0 ∨ 6000 < l → exec (.receivedFrameEnd bits) s = peer tag 9 5)
      ∧ (0 < o → mask ≠ 0 → t.origin ≠ 0 → l ≤ 6000 →
          (stale = true → exec (.receivedFrameEnd bits) s
            = told ⟨.lateNotice, some t, soleLane mask, BitVec.ofInt 16 (held (o - 1023))⟩)
          ∧ (stale = false → h + l < 0 → exec (.receivedFrameEnd bits) s = .next waits)
          ∧ (stale = false → 0 ≤ h + l → s.feed.map.length < 24 →
              exec (.receivedFrameEnd bits) s = .next (mapped waits (insertStretch x s.feed.map)).evalDrop)
          ∧ (stale = false → 0 ≤ h + l → 24 ≤ s.feed.map.length → exec (.receivedFrameEnd bits) s
              = told ⟨.listFull, some t, soleLane mask, BitVec.ofInt 16 h⟩)))
    ∧ (∀ head l, carries bits a (.hole m head l ⟨age, stale⟩) →
      let h := held (o + head - age)
      let x : Stretch := ⟨.reserved, a, none, mask, h, l, false, false⟩
      let former := s.feed.map.filter fun y => decide (¬ (y.kind = .reserved ∧ y.owner = a))
      let meets (y : Stretch) : Prop := y.mask &&& mask ≠ 0 ∧ y.head ≤ h + l ∧ h ≤ y.head + y.length
      let void : Prop := ∃ y ∈ former, (y.kind = .reserved ∨ (y.kind = .ownHole ∧ y.confirmed = true)) ∧ meets y
      let yields : Prop := ∃ y ∈ former, y.kind = .ownHole ∧ y.confirmed = false ∧ meets y
      (0 ≤ o → exec (.receivedFrameEnd bits) s = .next waits)
      ∧ (o < 0 → mask = 0 → exec (.receivedFrameEnd bits) s = peer none 8 6)
      ∧ (o < 0 → mask ≠ 0 → 32767 < head ∨ 8046 < l → exec (.receivedFrameEnd bits) s = peer none 10 6)
      ∧ (o < 0 → mask ≠ 0 → head ≤ 32767 → l ≤ 8046 →
          (stale = true → exec (.receivedFrameEnd bits) s
            = told ⟨.lateNotice, none, soleLane mask, BitVec.ofInt 16 (held (o + head - 1023))⟩)
          ∧ (stale = false → h + l < 0 ∨ void → exec (.receivedFrameEnd bits) s = tested (mapped waits former))
          ∧ (stale = false → 0 ≤ h + l → ¬ void → yields → s.feed.map.length ≤ 24 →
              (∀ y ∈ s.port.queue, y.notice.code = 6 → y.inSend = false) →
              let u := mapped waits (insertStretch x (former.filter fun y => y.kind ≠ .ownHole))
              exec (.receivedFrameEnd bits) s = tested { u with
                port := { u.port with queue := s.port.queue.filter fun y => y.notice.code ≠ 6 }
                hole := ⟨none, .none⟩
                feed := { u.feed with patience := 0 } })
          ∧ (stale = false → 0 ≤ h + l → ¬ void → ¬ yields → former.length < 24 →
              exec (.receivedFrameEnd bits) s = tested (mapped waits (insertStretch x former))
              ∧ (former = s.feed.map → exec (.receivedFrameEnd bits) s = .next (mapped waits (insertStretch x former)).evalDrop))
          ∧ (stale = false → 0 ≤ h + l → ¬ void → ¬ yields → 24 ≤ former.length → exec (.receivedFrameEnd bits) s
              = tested ((mapped waits former).occur ⟨.listFull, none, soleLane mask, BitVec.ofInt 16 h⟩))))

/-! ### Station control (chapter 4) -/

/-- The hold input (R61): its level is the park cause HOLD INPUT. Going active it parks an unparked station, and the
sort unit takes its park begin (R160); going inactive with no other cause it ends the park, and the drop test is
evaluated (R134). The settle timer's expiry in JOINING (R54, R65, R67): the station enters RUNNING with its queue as it
was. With no kind of severity HALT pending, the drop test follows where no park cause is present. With such a kind
pending, the own halt is raised for the lowest-numbered one, with no tag, and HALT is announced. -/
def Obligations.HoldInputAndSettleExpiry : Prop :=
  (∀ (s : State) (active : Bool),
     let u := { s with control := { s.control with holdInput := active } }
     exec (.holdInputChange active) s = .next
       (if s.parked = false ∧ active = true ∧ s.role = some .sort then
          { u with sort := { u.sort with actions := [], route := .runout, lastRoute := .runout } }
        else if s.parked = true ∧ u.parked = false then u.evalDrop
        else u))
  ∧ (∀ (s : State) (n start : Nat), s.control.state = .joining → s.control.settleTimer = .running n start →
     let u := { s with
       timeBase := max s.timeBase (start + n)
       control := { s.control with state := .running, settleTimer := .stopped } }
     (s.faults.haltKind = none →
       exec .settleTimerExpiry s = .next (if u.parked then u else u.evalDrop))
     ∧ (∀ k, s.faults.haltKind = some k → isAddress (Image.address s.image) → s.port.active = true →
       s.port.queue.length < 8 → s.control.queued = none →
       exec .settleTimerExpiry s = .next (State.queued
         { u with
           control := { withHalt u.control (Image.address s.image) k.number none with
             ownHalt := some ⟨k.number, none⟩, queued := some .halt } }
         (.halt k.number none))))

/-- JOIN in CONFIGURED with no departure (R53, R8, R29, R96, R171): the image is frozen, the port active and busy with a
PRESENT as its one frame, the fraction 0 with the encoder-loss timer started where the belt runs, every eye set anew by
the image, the policy taken, and the settle timer started for 250 ms. Nothing else changes. -/
def Obligations.JoinAccepted : Prop :=
  ∀ s : State, s.control.state = .configured → s.control.departure = false →
    exec .join s = .next (answered s
      { s with
        travel := { s.travel with
          fraction := 0
          lossTimer := if s.travel.beltRun then .running (10 * Image.byte s.image 0x006) s.timeBase else .stopped }
        eyes := s.eyes.mapAt fun k (e : Eye) =>
          { e with
            state := if Image.byte s.image 0x002 ≤ k.val ∨ (Image.byte s.image 0x008).testBit k.val = true
              then .off else .normal
            losses := 0, clearRun := 0, blockedRun := 0 }
        port := ⟨true, .busy,
          [⟨.present (Image.byte s.image 0x001) (Image.byte s.image 0x002) (Image.profileSum s.image)
              s.control.restartFlag false, 0, false⟩], 0, false, .stopped⟩
        control := { s.control with state := .joining, settleTimer := .running 250 s.timeBase }
        faults := { s.faults with policy := Image.policy s.image }
        spi := { s.spi with frozen := true } } 0 [0x00])

/-- LEAVE in JOINING and RUNNING (R68, R69, R96, R140, R141, R170): the station enters CONFIGURED unfrozen with the halt
set empty and every role block cleared; the sequence counter, the restart flag, the runout count and the tally queue are
kept. With nothing to announce the queue is cleared at once; with the own halt outstanding or an announcement under way
the departure begins: with none queued RESUME is added, by the overflow rule of R40 in a full queue; a HALT still queued
is followed by an owed RESUME; a RESUME still queued loses the HALT owed after it; and with the own halt not outstanding
the announcement goes on as it stood (R67). That the own halt's reason and the tag last dropped are cleared, and that a
halt request which that RESUME brings is nothing, is the model's reading (notes/assumptions/17.md). -/
def Obligations.LeaveAccepted : Prop :=
  ∀ s : State, s.onLine = true → ∃ t : State, exec .leave s = .next t
    ∧ t.control.state = .configured ∧ t.control.haltSet = 0 ∧ t.control.firstHalt = none ∧ t.control.ownHalt = none
    ∧ t.control.settleTimer = .stopped ∧ t.control.seq = s.control.seq
    ∧ t.control.restartFlag = s.control.restartFlag ∧ t.control.holdInput = s.control.holdInput
    ∧ t.spi = { s.spi with
        frozen := false, transaction := none, returned := [s.spi.transaction.getD s.statusByte, 0x00] }
    ∧ t.travel = { s.travel with fraction := 0, lost := false, lossTimer := .stopped }
    ∧ (∀ k : Lane, t.eyes.get k = ⟨(s.eyes.get k).raw, (s.eyes.get k).raw,
        if Image.byte s.image 0x002 ≤ k.val ∨ (Image.byte s.image 0x008).testBit k.val = true then .off else .normal,
        0, 0, 0, .stopped⟩)
    ∧ t.tracker.entries = [] ∧ (∀ k : Lane, t.tracker.orphans.get k = none) ∧ t.tracker.adopted = []
    ∧ t.feed = ⟨[], false, .waiting, s.feed.spreader, .stopped, .stopped, none, 0, false, []⟩
    ∧ t.hole = ⟨none, .none⟩
    ∧ t.sort = .cleared s.sort.runout s.sort.tally
    ∧ t.timeBase = s.timeBase ∧ t.pending = s.pending
    ∧ (s.control.haltSet.getLsbD (Image.address s.image) = false → s.control.queued = none → s.control.owed = none →
        t.control.departure = s.control.departure ∧ t.port = ⟨false, .busy, [], 0, false, .stopped⟩
        ∧ t.faults = s.faults)
    ∧ (s.control.haltSet.getLsbD (Image.address s.image) = true → s.control.queued = none → s.control.owed = none →
        s.port.active = true → s.port.queue.length < 8 →
        t.control.departure = true ∧ t.control.queued = some .resume ∧ t.control.owed = none
        ∧ t.port = { s.port with queue := withoutWaitingHole (insertSlot ⟨.resume, 0, false⟩ s.port.queue) }
        ∧ t.faults = s.faults)
    ∧ (s.control.haltSet.getLsbD (Image.address s.image) = true → s.control.queued = some .halt →
        t.control.departure = true ∧ t.control.queued = some .halt ∧ t.control.owed = some .resume
        ∧ t.port = { s.port with queue := withoutWaitingHole s.port.queue } ∧ t.faults = s.faults)
    ∧ (s.control.haltSet.getLsbD (Image.address s.image) = true → s.control.queued = some .resume →
        t.control.departure = true ∧ t.control.queued = some .resume ∧ t.control.owed = none
        ∧ t.port = { s.port with queue := withoutWaitingHole s.port.queue } ∧ t.faults = s.faults)
    ∧ (s.control.haltSet.getLsbD (Image.address s.image) = false → s.control.queued ≠ none →
        t.control.departure = true ∧ t.control.queued = s.control.queued ∧ t.control.owed = s.control.owed
        ∧ t.port = { s.port with queue := withoutWaitingHole s.port.queue } ∧ t.faults = s.faults)
    ∧ (∀ l y r, s.control.haltSet.getLsbD (Image.address s.image) = true → s.control.queued = none →
        s.control.owed = none → s.port.active = true → s.port.queue.length = 8 → s.port.queue = l ++ y :: r →
        y.inSend = false → (∀ z ∈ r, z.inSend = true) → 2 < y.notice.code →
        t.control.departure = true ∧ t.control.queued = some .resume ∧ t.control.owed = none
        ∧ t.port = { s.port with queue := withoutWaitingHole (insertSlot ⟨.resume, 0, false⟩ (l ++ r)) }
        ∧ t.faults = s.faults.take
            ⟨.lineBus, y.notice.tag?, none, BitVec.ofNat 16 (6 * 256 + (y.notice.code * 16 + Image.address s.image))⟩)

/-- STOP LINE in RUNNING with the own halt not outstanding (R65, R62, R63, R64, R67): reason 0 and no tag recorded, the
own address added, the first-halt record captured where the set was empty, the line-stop output active, and HALT
announced by the table of R67. RESUME with the own halt outstanding and no kind of severity HALT pending (R66, R63,
R67): the own address leaves the set, the record is re-armed where the set becomes empty, and RESUME is announced by the
table of R67; where the set becomes empty the drop test is evaluated (R134). -/
def Obligations.OwnHaltCommands : Prop :=
  (∀ s : State, s.running = true → isAddress (Image.address s.image) →
     s.control.haltSet.getLsbD (Image.address s.image) = false → s.port.active = true → s.port.queue.length < 8 →
     let own := Image.address s.image
     let c := { withHalt s.control own 0 none with ownHalt := some ⟨0, none⟩ }
     ∃ t : State, exec .stopLine s = .next t ∧ t.lineStop = true
       ∧ (s.control.queued = none →
           t = answered s (State.queued { s with control := { c with queued := some .halt } } (.halt 0 none)) 0 [0x00])
       ∧ (s.control.queued = some .resume →
           t = answered s { s with control := { c with owed := some .halt } } 0 [0x00])
       ∧ (s.control.queued = some .halt → t = answered s { s with control := { c with owed := none } } 0 [0x00]))
  ∧ (∀ s : State, s.control.state ≠ .lockout → s.control.haltSet.getLsbD (Image.address s.image) = true →
     s.faults.haltKind = none → s.port.active = true → s.port.queue.length < 8 →
     let c := { withoutHalt s.control (Image.address s.image) with ownHalt := none }
     let after (t : State) : State := if t.control.haltSet = 0 then t.evalDrop else t
     (s.control.queued = none → exec .resume s = .next (answered s
       (after (State.queued { s with control := { c with queued := some .resume } } .resume)) 0 [0x00]))
     ∧ (s.control.queued = some .halt → exec .resume s = .next (answered s
       (after { s with control := { c with owed := some .resume } }) 0 [0x00]))
     ∧ (s.control.queued = some .resume → exec .resume s = .next (answered s
       (after { s with control := { c with owed := none } }) 0 [0x00])))

/-- The restart flag (R59): set by hard reset; cleared by CLEAR RESTART, which is accepted in every state and changes no
queued frame; kept by LEAVE, by entry to LOCKOUT and by every other command; copied into each PRESENT as it is added,
the PRESENT of a JOIN and the reply in RUNNING to an own-address PRESENT with defend no. -/
def Obligations.RestartFlag : Prop :=
  (∀ (pins : Pins) (s : State), ∃ t, exec (.hardReset pins) s = .next t ∧ t.control.restartFlag = true)
  ∧ (∀ s : State, exec .clearRestart s = .next
      (answered s { s with control := { s.control with restartFlag := false } } 0 [0x00]))
  ∧ (∀ (s : State) (cause : LockoutCause), (s.lockOut cause).control.restartFlag = s.control.restartFlag)
  ∧ (∀ (c : Instr) (s t : State), exec c s = .next t → c ≠ .clearRestart → (∀ pins, c ≠ .hardReset pins) →
      t.control.restartFlag = s.control.restartFlag)
  ∧ (∀ s t : State, s.control.state = .configured → s.control.departure = false → exec .join s = .next t →
      ∃ r n sum, t.port.queue.map (·.notice) = [.present r n sum s.control.restartFlag false])
  ∧ (∀ (s : State) (bits : List Bool) (failed : Bool) (r n sum : Nat) (b : Bool), s.reading failed →
      s.control.state = .running → carries bits (Image.address s.image) (.present r n sum b false) →
      s.control.haltSet = 0 → (s.faults.policyFor .peer).masked = true → s.port.queue.length < 8 →
      ∃ (t : State) (r' n' sum' : Nat), exec (.receivedFrameEnd bits) s = .next t
        ∧ t.port.queue = insertSlot ⟨.present r' n' sum' s.control.restartFlag true, 0, false⟩ s.port.queue)

/-- What the processor port refuses, with the code of the first check that fails, and no other change (R181, R182, R183,
R184, R185, R187); an unknown code is refused with 01h. The status byte of a transaction is formed as select goes active
and stands until the take or the end before it, whatever other commands come between; a transaction cut short returns it
and changes nothing; beyond the response the part returns 00h (R181). Select going active is given as a form of
TRANSACTION_CUT_SHORT, which is the model's choice (notes/assumptions/23.md), as are the fields that hold the bytes
(11.md). -/
def Obligations.PortRefusals : Prop :=
  ∀ s : State,
    let refused (n : Nat) (code : Byte) : Host.Outcome State Fault Refusal := .next (answered s s n [code])
    (∀ code, code ∉ commandCodes → exec (.unknownCommand code) s = refused 0 0x01)
    ∧ exec (.transactionCutShort true) s = .next
        { s with spi := { s.spi with transaction := some (s.spi.transaction.getD s.statusByte) } }
    ∧ exec (.transactionCutShort false) s = .next
        { s with spi := { s.spi with transaction := none, returned := [s.spi.transaction.getD s.statusByte] } }
    ∧ (∀ (c : Instr) (t : State), encodeTransaction c = none → c ≠ .transactionCutShort true → (∀ pins, c ≠ .hardReset pins) →
        exec c s = .next t → t.spi.transaction = s.spi.transaction ∧ t.spi.returned = s.spi.returned)
    ∧ (∀ n, s.spi.returned.length ≤ n → s.byteReturned n = 0)
    ∧ (s.control.state ≠ .configured ∨ s.control.departure = true → exec .join s = refused 0 0x02)
    ∧ (s.onLine = false → exec .leave s = refused 0 0x02)
    ∧ (s.running = false → exec .stopLine s = refused 0 0x02)
    ∧ (s.running = true → s.control.haltSet.getLsbD (Image.address s.image) = true → exec .stopLine s = refused 0 0x06)
    ∧ (s.control.state = .lockout → exec .resume s = refused 0 0x02)
    ∧ (s.control.state ≠ .lockout → s.control.haltSet.getLsbD (Image.address s.image) = false →
        exec .resume s = refused 0 0x07)
    ∧ (s.control.state ≠ .lockout → s.control.haltSet.getLsbD (Image.address s.image) = true →
        (∃ k : FaultKind, s.faults.pending.getLsbD k.place.val = true ∧ (s.faults.policyFor k).severity = .halt) →
        exec .resume s = refused 0 0x08)
    ∧ (∀ n : Byte, n = 0 ∨ 16 < n.toNat → exec (.readTally n) s = refused 1 0x04)
    ∧ (∀ (o : BitVec 16) (n : Byte), n = 0 ∨ 64 < n.toNat ∨ 320 < o.toNat + n.toNat →
        exec (.readImage o n) s = refused 3 0x04)
    ∧ (∀ (o : BitVec 16) (data : List Byte),
        (s.spi.frozen = true → exec (.writeConfig o data) s = refused (3 + data.length) 0x03)
        ∧ (s.spi.frozen = false → s.control.departure = true → exec (.writeConfig o data) s = refused (3 + data.length) 0x02)
        ∧ (s.spi.frozen = false → s.control.departure = false →
            data.length = 0 ∨ 64 < data.length ∨ 320 < o.toNat + data.length →
            exec (.writeConfig o data) s = refused (3 + data.length) 0x04))
    ∧ (s.spi.frozen = true → exec .validate s = refused 0 0x03)
    ∧ (s.spi.frozen = false → s.control.departure = true → exec .validate s = refused 0 0x02)
    ∧ (∀ b : Byte,
        (s.onLine = false → exec (.closeStack b) s = refused 1 0x02)
        ∧ (s.onLine = true → s.role ≠ some .sort → exec (.closeStack b) s = refused 1 0x0A)
        ∧ (s.onLine = true → s.role = some .sort → 3 < b.toNat → exec (.closeStack b) s = refused 1 0x04)
        ∧ (s.onLine = true → s.role = some .sort → ∀ c : StackerNo, b.toNat = c.val →
            (s.sort.stackers.get c).discharging = true ∨ (s.sort.stackers.get c).stack.count = 0 →
            exec (.closeStack b) s = refused 1 0x09))

/-! ### The line bus (chapter 3) -/

/-- MEDIUM_BECOMES_IDLE and SEND_ATTEMPT_START (R30, R38, R39, R45): the eleventh recessive bit makes the medium idle
for an active port that is not sending; the start bit of another station's frame, a form of the same command
(the model's choice, notes/assumptions/26.md), makes an active port at an idle medium follow that frame, in which it
starts no attempt of its own, and at any other medium is nothing; at idle, not off-line, the first waiting frame goes in send with the age field
and stale flag of its slot age, which alone are written, and only into a PASS, a DROP or a HOLE. Without that, no
attempt starts: the event is then nothing (notes/assumptions/5.md). -/
def Obligations.IdleAndSendStart : Prop :=
  ∀ s : State,
    (s.port.active = true → s.port.medium ≠ .sending →
        exec .mediumBecomesIdle s = .next { s with port := { s.port with medium := .idle } })
    ∧ (s.port.active = false ∨ s.port.medium = .sending → exec .mediumBecomesIdle s = .next s)
    ∧ (s.port.active = true → s.port.medium = .idle →
        let t := { s with port := { s.port with medium := .following false } }
        exec (.mediumBecomesIdle false) s = .next t ∧ exec .sendAttemptStart t = .next t)
    ∧ (s.port.active = false ∨ s.port.medium ≠ .idle → exec (.mediumBecomesIdle false) s = .next s) ∧
    (∀ x rest, s.port.active = true → s.port.medium = .idle → s.port.offLine = false → s.port.queue = x :: rest →
      (∀ y ∈ s.port.queue, y.inSend = false) →
      let st : Stamp := if x.age ≤ 1023 then ⟨x.age, false⟩ else ⟨1023, true⟩
      let n : Notice :=
        match x.notice with
        | .pass t p m f l _ => .pass t p m f l st
        | .drop t p m b l _ => .drop t p m b l st
        | .hole m h l _ => .hole m h l st
        | .halt r t => .halt r t
        | .resume => .resume
        | .loss t m b => .loss t m b
        | .present r c u v w => .present r c u v w
      exec .sendAttemptStart s = .next { s with
        port := { s.port with medium := .sending, queue := ⟨n, x.age, true⟩ :: rest } })
    ∧ (s.port.active = false ∨ s.port.medium ≠ .idle ∨ s.port.offLine = true ∨ s.port.queue = [] →
        exec .sendAttemptStart s = .next s)

/-- LOST_CONTENTION and TRANSMIT_FAILURE (R35, R36, R38, R50, R55). At a recessive identifier bit the frame in send
returns to waiting in its slot, fields, age and failures unchanged, and the port reads on. At any other bit of the frame
the failure count adds one as well. At the 16th failure the port goes off-line for 1000 ms with LINE BUS cause 7. In
JOINING a failed PRESENT is a clash, which leads to LOCKOUT with the port inactive, the halt set empty and the settle
timer stopped. At a bit of the other sort, and with no frame in send, the event is nothing (notes/assumptions/5.md). -/
def Obligations.AttemptEndsEarly : Prop :=
  ∀ (s : State) (pos : Nat),
    ((∀ y ∈ s.port.queue, y.inSend = false) →
      exec (.lostContention pos) s = .next s ∧ exec (.transmitFailure pos) s = .next s)
    ∧ ∀ x, s.port.queue.find? (·.inSend) = some x →
      let ident : Byte := BitVec.ofNat 8 (x.notice.code * 16 + Image.address s.image)
      let contends := recessiveIdentifierBit ident x.notice.bytes pos
      let back (failures : Nat) (m : Medium) : State := { s with
        port := { s.port with
          medium := m
          failures := failures
          queue := s.port.queue.map fun (y : Slot) => { y with inSend := false } } }
      let failed := back (s.port.failures + 1) (.following true)
      let present := x.notice.code = 7 ∧ s.control.state = .joining
      exec (.lostContention pos) s = .next (if contends then back s.port.failures (.following false) else s)
      ∧ (contends = true ∨ (frameBits ident x.notice.bytes).length ≤ pos → exec (.transmitFailure pos) s = .next s)
      ∧ (contends = false → pos < (frameBits ident x.notice.bytes).length →
        (¬ present → s.port.failures < 15 → exec (.transmitFailure pos) s = .next failed)
        ∧ (¬ present → s.port.failures = 15 → exec (.transmitFailure pos) s = .next (State.occur
            { failed with port := { failed.port with offLine := true, offLineTimer := .running 1000 s.timeBase } }
            ⟨.lineBus, none, none, BitVec.ofNat 16 (7 * 256 + (x.notice.code * 16 + Image.address s.image))⟩))
        ∧ (present → ∃ t : State, exec (.transmitFailure pos) s = .next t
          ∧ t.control.state = .lockout ∧ t.control.lockoutCause = some .failedPresent
          ∧ t.control.settleTimer = .stopped ∧ t.control.haltSet = 0 ∧ t.control.firstHalt = none
          ∧ t.control.queued = none ∧ t.control.owed = none
          ∧ t.control.seq = s.control.seq ∧ t.control.restartFlag = s.control.restartFlag
          ∧ t.port = ⟨false, .busy, [], 0, false, .stopped⟩ ∧ t.spi = s.spi
          ∧ t.travel = { s.travel with fraction := 0, lost := false, lossTimer := .stopped }
          ∧ t.tracker.entries = [] ∧ t.feed.map = [] ∧ t.feed.batchLatch = false ∧ t.sort.actions = []
          ∧ t.lineStop = false ∧ t.attention = true))

/-- TRANSMIT_COMPLETION (R37, R67, R69, R93, R136, R144): the frame in send leaves the queue and the failures become 0.
A LOSS, PASS, DROP or PRESENT does no more. A HOLE whose frame state is CURRENT confirms the own hole. A HALT or RESUME
with none owed leaves nothing queued, and ends a departure with the port inactive; with one owed, that one is added, a
HALT with the own-halt reason and tag. -/
def Obligations.TransmitCompletion : Prop :=
  ∀ (s : State) (x : Slot), s.port.queue.find? (·.inSend) = some x →
    let sent := { s with
      port := { s.port with medium := .busy, failures := 0, queue := s.port.queue.filter fun y => !y.inSend } }
    (x.notice.code = 3 ∨ x.notice.code = 4 ∨ x.notice.code = 5 ∨ x.notice.code = 7 →
      exec .transmitCompletion s = .next sent)
    ∧ (x.notice.code = 6 → s.hole.frame = .current → exec .transmitCompletion s = .next
        { sent with
          hole := { sent.hole with frame := .none }
          feed := { sent.feed with
            map := sent.feed.map.map fun (y : Stretch) =>
              if y.kind = .ownHole then { y with confirmed := true } else y } })
    ∧ (x.notice.code = 6 → s.hole.frame ≠ .current → exec .transmitCompletion s = .next
        { sent with hole := { sent.hole with frame := .none } })
    ∧ (x.notice.code = 1 ∨ x.notice.code = 2 → s.control.owed = none → s.control.departure = false →
        exec .transmitCompletion s = .next { sent with control := { sent.control with queued := none } })
    ∧ (x.notice.code = 1 ∨ x.notice.code = 2 → s.control.owed = none → s.control.departure = true →
        exec .transmitCompletion s = .next
          { sent with
            control := { sent.control with queued := none, departure := false }
            port := ⟨false, .busy, [], 0, false, .stopped⟩ })
    ∧ (x.notice.code = 1 ∨ x.notice.code = 2 → s.control.owed = some .resume → s.port.active = true →
        s.port.queue.length ≤ 8 →
        exec .transmitCompletion s = .next (State.queued
          { sent with control := { sent.control with queued := some .resume, owed := none } } .resume))
    ∧ (∀ r t, x.notice.code = 1 ∨ x.notice.code = 2 → s.control.owed = some .halt → s.control.ownHalt = some ⟨r, t⟩ →
        s.port.active = true → s.port.queue.length ≤ 8 →
        exec .transmitCompletion s = .next (State.queued
          { sent with control := { sent.control with queued := some .halt, owed := none } } (.halt r t)))

/-- Discards (R32, R46, R50): a frame abandoned at a break of the bit rules gives LINE BUS cause 2 with the identifier
if it was read; a frame that ends with a wrong check, a kind code of 0 or 8..15, a sender address 0 or a data length its
kind does not allow gives cause 1, 3, 4 or 5, the first that applies, with the identifier as received. A frame on which
the station suffered a transmit failure gives none. The port then waits for the medium to be idle. -/
def Obligations.FrameDiscards : Prop :=
  ∀ (s : State) (bits : List Bool) (failed : Bool), s.reading failed → isAddress (Image.address s.image) →
    let waits := { s with port := { s.port with medium := .busy } }
    let discarded (cause ident : Nat) : Host.Outcome State Fault Refusal :=
      .next (if failed then waits
        else waits.occur ⟨.lineBus, none, none, BitVec.ofNat 16 (cause * 256 + ident)⟩)
    (∀ id : Byte, follow bits = .broken (some id) → exec (.frameAbandoned bits) s = discarded 2 id.toNat)
    ∧ (follow bits = .broken none → exec (.frameAbandoned bits) s = discarded 2 0)
    ∧ (∀ (id : Byte) (data : List Byte) (check : BitVec 16), follow bits = .ended ⟨id, data, check⟩ →
        let right := frameCheck (coveredBits id data)
        let kind := id.toNat / 16
        (check ≠ right → exec (.receivedFrameEnd bits) s = discarded 1 id.toNat)
        ∧ (check = right → kind = 0 ∨ 8 ≤ kind → exec (.receivedFrameEnd bits) s = discarded 3 id.toNat)
        ∧ (check = right → 1 ≤ kind → kind ≤ 7 → id.toNat % 16 = 0 →
            exec (.receivedFrameEnd bits) s = discarded 4 id.toNat)
        ∧ (check = right → id.toNat % 16 ≠ 0 →
            (kind = 1 ∧ data.length ≠ 1 ∧ data.length ≠ 3 ∨ kind = 2 ∧ data.length ≠ 0 ∨ kind = 3 ∧ data.length ≠ 3
              ∨ kind = 4 ∧ data.length ≠ 8 ∨ kind = 5 ∧ data.length ≠ 8 ∨ kind = 6 ∧ data.length ≠ 7
              ∨ kind = 7 ∧ data.length ≠ 4) →
            exec (.receivedFrameEnd bits) s = discarded 5 id.toNat))

/-- A peer's HALT with a reason of 0..16 adds its address to the halt set and is captured in the first-halt record where
the set was empty; one with another reason is PEER cause 6; a RESUME removes the address, and where the set becomes
empty the record is re-armed and the drop test evaluated (R60, R62, R63, R134). -/
def Obligations.PeerHaltAndResume : Prop :=
  ∀ (s : State) (bits : List Bool) (failed : Bool) (a : Nat), s.reading failed → s.onLine = true →
    a ≠ Image.address s.image → isAddress (Image.address s.image) →
    let waits := { s with port := { s.port with medium := .busy } }
    (∀ r t, carries bits a (.halt r t) → r ≤ 16 →
      exec (.receivedFrameEnd bits) s = .next { waits with control := withHalt s.control a r t })
    ∧ (∀ r t, carries bits a (.halt r t) → 16 < r →
      exec (.receivedFrameEnd bits) s = .next
        (waits.occur ⟨.peer, none, none, BitVec.ofNat 16 (6 * 256 + (16 + a))⟩))
    ∧ (carries bits a .resume →
      let t := { waits with control := withoutHalt s.control a }
      exec (.receivedFrameEnd bits) s = .next
        (if s.control.haltSet ≠ 0 ∧ t.control.haltSet = 0 then t.evalDrop else t))

/-- A peer's PRESENT (R58, R60): each difference from this station, in the order of R58, is one PEER occurrence with its
cause (1 lane count, 2 profile-table sum, 3 restarted, 7 role); then, with defend no, the peer's address leaves the halt
set, and where the set becomes empty the drop test is evaluated (R134); with defend yes the set stays. Then an
outstanding own halt is announced again, with its reason and tag, unless a HALT or RESUME is queued or owed. -/
def Obligations.PeerPresent : Prop :=
  ∀ (s : State) (bits : List Bool) (failed : Bool) (a r n sum : Nat) (restarted defend : Bool), s.reading failed →
    s.onLine = true → a ≠ Image.address s.image → isAddress (Image.address s.image) →
    carries bits a (.present r n sum restarted defend) →
    let waits := { s with port := { s.port with medium := .busy } }
    let causes : List Nat :=
      (if n = Image.byte s.image 0x002 then [] else [1]) ++ (if sum = Image.profileSum s.image then [] else [2])
      ++ (if restarted then [3] else []) ++ (if 1 ≤ r ∧ r ≤ 3 then [] else [7])
    let told := causes.foldl
      (fun (u : State) cause => u.occur ⟨.peer, none, none, BitVec.ofNat 16 (cause * 256 + (112 + a))⟩) waits
    let t := if defend then told else { told with control := withoutHalt told.control a }
    let ownOut := s.control.haltSet.getLsbD (Image.address s.image)
    (ownOut = false → exec (.receivedFrameEnd bits) s = .next
      (if s.control.haltSet ≠ 0 ∧ t.control.haltSet = 0 then t.evalDrop else t))
    ∧ (ownOut = true → s.control.queued ≠ none ∨ s.control.owed ≠ none → exec (.receivedFrameEnd bits) s = .next t)
    ∧ (∀ reason tag, ownOut = true → s.control.queued = none → s.control.owed = none →
        s.control.ownHalt = some ⟨reason, tag⟩ → s.port.queue.length < 8 →
        exec (.receivedFrameEnd bits) s = .next (State.queued
          { t with control := { t.control with queued := some .halt } } (.halt reason tag)))

/-- An own-address frame in JOINING leads to LOCKOUT with its kind as the cause, whatever its kind (R47, R55); in
RUNNING any kind but a PRESENT with defend no is PEER cause 5 and brings no reply (R57); a PRESENT with defend no is
PEER cause 4, an outstanding own halt is announced again unless a HALT or RESUME is queued or owed, and this station's
PRESENT with defend yes is added (R57, R59, R67); in a departure it is nothing (R57, R69). -/
def Obligations.OwnAddressFrame : Prop :=
  ∀ (s : State) (bits : List Bool) (failed : Bool) (n : Notice), s.reading failed →
    carries bits (Image.address s.image) n →
    let waits := { s with port := { s.port with medium := .busy } }
    (s.control.state = .joining → ∃ t : State, exec (.receivedFrameEnd bits) s = .next t
      ∧ t.control.state = .lockout ∧ t.control.lockoutCause = some (.ownAddress n.code)
      ∧ t.control.settleTimer = .stopped ∧ t.control.haltSet = 0 ∧ t.control.firstHalt = none
      ∧ t.port = ⟨false, .busy, [], 0, false, .stopped⟩ ∧ t.spi = s.spi ∧ t.faults = s.faults
      ∧ t.tracker.entries = [] ∧ t.feed.map = [] ∧ t.sort = .cleared s.sort.runout s.sort.tally)
    ∧ (s.control.state = .running → (∀ r c u v, n ≠ .present r c u v false) →
      exec (.receivedFrameEnd bits) s = .next
        (waits.occur ⟨.peer, none, none, BitVec.ofNat 16 (5 * 256 + (n.code * 16 + Image.address s.image))⟩))
    ∧ (∀ r c u v, s.control.state = .running → n = .present r c u v false → isAddress (Image.address s.image) →
        s.port.queue.length < 7 →
        let told := waits.occur ⟨.peer, none, none, BitVec.ofNat 16 (4 * 256 + (112 + Image.address s.image))⟩
        let reply : Notice := .present (Image.byte s.image 0x001) (Image.byte s.image 0x002) (Image.profileSum s.image)
          s.control.restartFlag true
        let ownOut := s.control.haltSet.getLsbD (Image.address s.image)
        (ownOut = false ∨ s.control.queued ≠ none ∨ s.control.owed ≠ none →
          exec (.receivedFrameEnd bits) s = .next (State.queued told reply))
        ∧ (∀ reason tag, ownOut = true → s.control.queued = none → s.control.owed = none →
            s.control.ownHalt = some ⟨reason, tag⟩ →
            exec (.receivedFrameEnd bits) s = .next (State.queued
              (State.queued { told with control := { told.control with queued := some .halt } } (.halt reason tag)) reply)))
    ∧ (s.control.state = .configured → exec (.receivedFrameEnd bits) s = .next waits)

/-- What a notice brings to the expectation list. A DROP from a listed sender, within the fields, not stale, of a tag
not in the list, with no orphan held and not late, with room in the list, enters it as an AWAITED entry in order (R72 to
R77), with the distance o - age, the tolerances of R76 and the record of R22, R26 and R27. A LOSS from any other station
removes the entry of its tag, in either state, with no report, at a CHECK or SORT station; with batch close a SORT
station's sort unit then takes a lost batch close of the removed piece, as RunoutCount gives it (R92, R166); with no such
entry, and at a FEED station, it is nothing (R49, R91). Any DROP or PASS from a listed sender that
passes the field check is taken through the receive order with the record, distance and tolerances of R22, R27, R75 and
R76; one that fails it is PEER cause 8 for a mask with no lane of this station, and cause 9 for a tag of origin 0 or a
nominal length above 6000, with the notice's tag where its origin is 1..15 (R74). -/
def Obligations.NoticesAtTracker : Prop :=
  ∀ (s : State) (bits : List Bool) (failed : Bool) (a : Nat), s.reading failed → s.onLine = true →
    a ≠ Image.address s.image →
    let waits := { s with port := { s.port with medium := .busy } }
    let tolerance (o : Int) (fixed perMille : Nat) : Nat :=
      min 2047 (Image.word s.image fixed + (o.toNat * Image.byte s.image perMille + 999) / 1000)
    let announced (o : Int) (piece : Piece) (from_ : Int) (stale : Bool) : Announcement :=
      ⟨piece, max (-32768) (min 32767 from_), tolerance o 0x012 0x00F, tolerance o 0x014 0x010, stale⟩
    let peer (cause code : Nat) (t : Tag) : State := waits.occur
      ⟨.peer, if 1 ≤ t.origin.toNat ∧ t.origin.toNat ≤ 15 then some t else none, none,
        BitVec.ofNat 16 (cause * 256 + (code * 16 + a))⟩
    (∀ (o : Int) (t : Tag) (p : Nat) (m : LaneSet) (l age : Nat) (stale : Bool), s.role = some .check ∨ s.role = some .sort →
      Image.offsetOf s.image a = some o → 0 ≤ o →
      let mask := m &&& Image.lanes s.image
      (∀ b, carries bits a (.drop t p m b l ⟨age, stale⟩) →
        (mask ≠ 0 → t.origin ≠ 0 → l ≤ 6000 → exec (.receivedFrameEnd bits) s = .next (waits.receiveOrder
          (announced o ⟨t, p, mask, l, none, ⟨b, false, false, false, false, false⟩⟩ (o - age) stale)))
        ∧ (mask = 0 → exec (.receivedFrameEnd bits) s = .next (peer 8 5 t))
        ∧ (mask ≠ 0 → t.origin = 0 ∨ 6000 < l → exec (.receivedFrameEnd bits) s = .next (peer 9 5 t)))
      ∧ (∀ f, carries bits a (.pass t p m f l ⟨age, stale⟩) →
        (mask ≠ 0 → t.origin ≠ 0 → exec (.receivedFrameEnd bits) s = .next (waits.receiveOrder
          (announced o
            ⟨t, p, mask, (Image.profile s.image p).nominal, if f.unverified then none else some l, f⟩ (o - l - age) stale)))
        ∧ (mask = 0 → exec (.receivedFrameEnd bits) s = .next (peer 8 4 t))
        ∧ (mask ≠ 0 → t.origin = 0 → exec (.receivedFrameEnd bits) s = .next (peer 9 4 t))))
    ∧ (∀ (o : Int) (t : Tag) (p : Nat) (m : LaneSet) (b : Bool) (l age : Nat), s.role = some .check ∨ s.role = some .sort →
      Image.offsetOf s.image a = some o → 0 ≤ o → carries bits a (.drop t p m b l ⟨age, false⟩) →
      m &&& Image.lanes s.image ≠ 0 → t.origin ≠ 0 → l ≤ 6000 →
      (∀ e ∈ s.tracker.entries, e.piece.tag ≠ t) → (∀ k : Lane, s.tracker.orphans.get k = none) →
      s.tracker.entries.length < 32 →
      let part (fixed perMille : Nat) : Nat := min 2047 (fixed + (o.toNat * perMille + 999) / 1000)
      let early := part (Image.word s.image 0x012) (Image.byte s.image 0x00F)
      let late := part (Image.word s.image 0x014) (Image.byte s.image 0x010)
      let distance := max (-32768) (min 32767 (o - age))
      distance ≥ -(late : Int) →
      exec (.receivedFrameEnd bits) s = .next { waits with
        tracker := { s.tracker with
          nextPlacing := s.tracker.nextPlacing + 1
          entries := insertEntry
            ⟨⟨t, p, m &&& Image.lanes s.image, l, none, ⟨b, false, false, false, false, false⟩⟩, distance, early, late,
             none, s.tracker.nextPlacing⟩ s.tracker.entries } })
    ∧ (∀ (t : Tag) (m : LaneSet) (b : Bool), carries bits a (.loss t m b) → ListLaw s →
      (s.role = some .check ∨ (s.role = some .sort ∧ b = false) →
        exec (.receivedFrameEnd bits) s = .next
          { waits with tracker := { s.tracker with entries := s.tracker.entries.filter fun e => e.piece.tag ≠ t } })
      ∧ (s.role = some .feed → exec (.receivedFrameEnd bits) s = .next waits)
      ∧ (s.role = some .sort → b = true →
        (∀ l e r, s.tracker.entries = l ++ e :: r → e.piece.tag = t → exec (.receivedFrameEnd bits) s = .next
          (State.lostBatchClose { waits with tracker := { s.tracker with entries := l ++ r } } e.piece))
        ∧ ((∀ e ∈ s.tracker.entries, e.piece.tag ≠ t) → exec (.receivedFrameEnd bits) s = .next waits)))

/-- The receive order (R77 to R80, R115, R116, R101). A stale notice is LATE NOTICE. A known tag refreshes its AWAITED
entry, placed anew, and is ignored for a PASSING one. A notice of a new tag claims orphans where one passes the claim
test: first the passing one with the greatest travel, on the lowest lane among equals, then those on lanes of its mask
whose travel lies within the skew of it. Each claimed lane has a matched sighting. While one of them is blocked they
become the passage of a PASSING entry; in a full list the notice is LIST FULL, the orphans stay and no lane has a matched
sighting (the last is the model's choice, notes/assumptions/29.md). All clear, the passage ends at once, with the
greatest t1 - t + m as its measured length and the least travel since a trailing edge. A lone orphan is stated apart.
That a measured length is held at 65535 is R110. A notice that claims none is LATE NOTICE below minus its late tolerance, else LIST FULL in
a full list, else an AWAITED entry. A fault has the tag, the lane of a mask of one lane, and the initial remaining
distance. -/
def Obligations.ReceiveOrder : Prop :=
  ∀ (s : State) (a : Announcement), ListLaw s →
    let fault (kind : FaultKind) : State :=
      s.occur ⟨kind, some a.piece.tag, soleLane a.piece.mask, BitVec.ofInt 16 a.initial⟩
    let entry (g : Option Passage) : Entry := ⟨a.piece, a.initial, a.early, a.late, g, s.tracker.nextPlacing⟩
    let placed (g : Option Passage) (others : List Entry) : Tracker :=
      { s.tracker with nextPlacing := s.tracker.nextPlacing + 1, entries := insertEntry (entry g) others }
    let claims (k : Lane) (o : Orphan) : Prop :=
      a.piece.mask.getLsbD k.val = true ∧ -(a.late : Int) ≤ a.initial + o.travel ∧ a.initial + o.travel ≤ a.early
    let isNew : Prop := ∀ e ∈ s.tracker.entries, e.piece.tag ≠ a.piece.tag
    (a.stale = true → s.receiveOrder a = fault .lateNotice)
    ∧ (∀ l e r, a.stale = false → s.tracker.entries = l ++ e :: r → e.piece.tag = a.piece.tag →
        (e.passage = none → s.receiveOrder a = { s with tracker := placed none (l ++ r) })
        ∧ (e.passage ≠ none → s.receiveOrder a = s))
    ∧ (a.stale = false → isNew → (∀ k o, s.tracker.orphans.get k = some o → ¬ claims k o) →
        (a.initial < -(a.late : Int) → s.receiveOrder a = fault .lateNotice)
        ∧ (-(a.late : Int) ≤ a.initial → 32 ≤ s.tracker.entries.length → s.receiveOrder a = fault .listFull)
        ∧ (-(a.late : Int) ≤ a.initial → s.tracker.entries.length < 32 →
            s.receiveOrder a = { s with tracker := placed none s.tracker.entries }))
    ∧ (∀ k o, a.stale = false → isNew → s.tracker.orphans.get k = some o → claims k o →
        (∀ j : Lane, j ≠ k → a.piece.mask.getLsbD j.val = true → s.tracker.orphans.get j = none) →
        let bit : LaneSet := BitVec.ofNat 4 (2 ^ k.val)
        let e := s.eyes.get k
        let eyes := s.eyes.set k
          (if e.state = .normal ∨ e.state = .suspect then { e with state := .normal, losses := 0 } else e)
        let orphans := s.tracker.orphans.set k none
        (o.clear = none → s.tracker.entries.length < 32 → s.receiveOrder a = { s with
          eyes := eyes
          tracker := { placed (some ⟨bit, bit, o.travel, o.degraded, o.stuck⟩) s.tracker.entries with orphans := orphans } })
        ∧ (o.clear = none → 32 ≤ s.tracker.entries.length → s.receiveOrder a = fault .listFull)
        ∧ (∀ c, o.clear = some c → c.measured ≤ 65535 → s.receiveOrder a =
            State.passageEnd { s with eyes := eyes, tracker := { s.tracker with orphans := orphans } } a.piece
              ⟨bit, 0, c.measured, o.degraded, o.stuck⟩ c.since))
    ∧ (∀ (k : Lane) (o : Orphan) (m b : LaneSet) (stuck degraded : Bool), a.stale = false → isNew →
        s.tracker.orphans.get k = some o → claims k o →
        (∀ j x, s.tracker.orphans.get j = some x → claims j x → x.travel < o.travel ∨ (x.travel = o.travel ∧ k ≤ j)) →
        let skew := Image.byte s.image 0x00E
        let claimed (j : Lane) (x : Orphan) : Prop := s.tracker.orphans.get j = some x ∧ a.piece.mask.getLsbD j.val = true
          ∧ x.travel ≤ o.travel + skew ∧ o.travel ≤ x.travel + skew
        (∀ j : Lane, m.getLsbD j.val = true ↔ ∃ x, claimed j x) →
        (∀ j : Lane, b.getLsbD j.val = true ↔ ∃ x, claimed j x ∧ x.clear = none) →
        (stuck = true ↔ ∃ j x, claimed j x ∧ x.stuck = true) →
        (degraded = true ↔ ∃ j x, claimed j x ∧ x.degraded = true) →
        let eyes := s.eyes.mapAt fun j e =>
          if m.getLsbD j.val = true ∧ (e.state = .normal ∨ e.state = .suspect) then { e with state := .normal, losses := 0 }
          else e
        let orphans := s.tracker.orphans.mapAt fun j x => if m.getLsbD j.val then none else x
        (b ≠ 0 → s.tracker.entries.length < 32 → s.receiveOrder a = { s with
          eyes := eyes
          tracker := { placed (some ⟨m, b, o.travel, degraded, stuck⟩) s.tracker.entries with orphans := orphans } })
        ∧ (b ≠ 0 → 32 ≤ s.tracker.entries.length → s.receiveOrder a = fault .listFull)
        ∧ (∀ length since : Nat, b = 0 →
            (∃ j x c, claimed j x ∧ x.clear = some c ∧ (length : Int) = (o.travel : Int) - x.travel + c.measured) →
            (∀ j x c, claimed j x → x.clear = some c → (o.travel : Int) - x.travel + c.measured ≤ length) →
            (∃ j x c, claimed j x ∧ x.clear = some c ∧ since = c.since) →
            (∀ j x c, claimed j x → x.clear = some c → since ≤ c.since) →
            s.receiveOrder a =
              State.passageEnd { s with eyes := eyes, tracker := { s.tracker with orphans := orphans } } a.piece
                ⟨m, 0, min 65535 length, degraded, stuck⟩ since))

/-- Adding a frame to the queue of an active port (R40, R39, R50, R144): below 8 frames it enters waiting at its place;
in a full queue it puts out the last waiting frame of a higher kind, or is itself put out, with LINE BUS cause 6, the
frame's identifier and its tag. A HOLE put out ends an unconfirmed own hole with patience at 0. -/
def Obligations.AddFrame : Prop :=
  ∀ (s : State) (n : Notice) (age : Nat), s.port.active = true →
    let x : Slot := ⟨n, age, false⟩
    let holds (q : List Slot) : State := { s with port := { s.port with queue := q } }
    let putOut (u : State) (y : Slot) : State :=
      u.occur ⟨.lineBus, y.notice.tag?, none, BitVec.ofNat 16 (6 * 256 + (y.notice.code * 16 + Image.address s.image))⟩
    (s.port.queue.length < 8 → s.add n age = holds (insertSlot x s.port.queue))
    ∧ (∀ l y r, s.port.queue.length = 8 → s.port.queue = l ++ y :: r → y.inSend = false → (∀ z ∈ r, z.inSend = true) →
        (n.code < y.notice.code → y.notice.code ≠ 6 → s.add n age = putOut (holds (insertSlot x (l ++ r))) y)
        ∧ (n.code < y.notice.code → y.notice.code = 6 → s.hole.frame = .current →
            let u := holds (insertSlot x (l ++ r))
            s.add n age = putOut
              { u with
                feed := { u.feed with patience := 0, map := u.feed.map.filter fun z => z.kind ≠ .ownHole }
                hole := ⟨none, .none⟩ } y)
        ∧ (y.notice.code ≤ n.code → n.code ≠ 6 → s.add n age = putOut s x))

/-! ### Faults (chapter 10) -/

/-- An occurrence at the fault unit (R172, R173, R175): its count adds one, held at 255, whatever its mask; unmasked, it
sets its pending bit and is captured by an empty record, or sets the more-faults flag. The other counts, pending bits
and the policy do not change. A masked occurrence does no more. An unmasked one of severity HALT in RUNNING, the own
halt not outstanding, raises the own halt with the kind as reason and the tag of the first-fault record, and announces
HALT (R65, R67, R173, R176); outstanding already, or outside RUNNING, it changes the fault unit alone. One of severity
HOLD parks an unparked SORT station with what its park begin brings (R61, R160, R174); one of severity NOTE changes the
fault unit alone. -/
def Obligations.Occurrences : Prop :=
  (∀ (u : FaultUnit) (o : Occurrence),
     let t := u.take o
     (∀ k : FaultKind, t.counts[k.place] = if k = o.kind then min 255 (u.counts[k.place] + 1) else u.counts[k.place])
     ∧ t.policy = u.policy
     ∧ ((u.policyFor o.kind).masked = true → t.pending = u.pending ∧ t.first = u.first ∧ t.more = u.more)
     ∧ ((u.policyFor o.kind).masked = false →
         (∀ k : FaultKind, t.isPending k = (u.isPending k || decide (k = o.kind)))
         ∧ (u.first = none → t.first = some o ∧ t.more = u.more)
         ∧ (∀ x, u.first = some x → t.first = some x ∧ t.more = true)))
  ∧ (∀ (s : State) (o : Occurrence), (s.faults.policyFor o.kind).masked = true →
      s.occur o = { s with faults := s.faults.take o })
  ∧ (∀ (s : State) (o : Occurrence), (s.faults.policyFor o.kind).masked = false →
     let u := { s with faults := s.faults.take o }
     let own := Image.address s.image
     ((s.faults.policyFor o.kind).severity = .note → s.occur o = u)
     ∧ ((s.faults.policyFor o.kind).severity = .hold →
         s.occur o = if s.parked = false ∧ s.role = some .sort then
           { u with sort := { u.sort with actions := [], route := .runout, lastRoute := .runout } } else u)
     ∧ ((s.faults.policyFor o.kind).severity = .halt → s.running = false ∨ s.control.haltSet.getLsbD own = true →
         s.occur o = u)
     ∧ ((s.faults.policyFor o.kind).severity = .halt → s.running = true → s.control.haltSet.getLsbD own = false →
         s.port.active = true → s.port.queue.length < 8 → s.control.queued = none →
         let tag := ((s.faults.first.getD o).tag)
         s.occur o = State.queued
           { u with
             control := { withHalt s.control own o.kind.number tag with
               ownHalt := some ⟨o.kind.number, tag⟩, queued := some .halt } }
           (.halt o.kind.number tag)))

/-- ACK FAULTS (R177, R174): the kinds of the set leave the pending set, the record and the more-faults flag are cleared
where the record's kind is in the set, the counts and the policy stay; where the last HOLD kind has gone and no other
park cause is present, the park ends and the drop test is evaluated (R61, R134). -/
def Obligations.AckFaults : Prop :=
  ∀ (s : State) (kinds : BitVec 16),
    let cleared : Prop := ∃ o, s.faults.first = some o ∧ kinds.getLsbD o.kind.place.val = true
    ∃ u : State, exec (.ackFaults kinds) s = .next (answered s
        (if s.parked = true ∧ u.parked = false then u.evalDrop else u) 2 [0x00])
      ∧ u = { s with faults := u.faults }
      ∧ u.faults.pending = s.faults.pending &&& ~~~ kinds
      ∧ u.faults.counts = s.faults.counts ∧ u.faults.policy = s.faults.policy
      ∧ (cleared → u.faults.first = none ∧ u.faults.more = false)
      ∧ (¬ cleared → u.faults.first = s.faults.first ∧ u.faults.more = s.faults.more)

/-! ### Sort unit (chapter 9) -/

/-- The fold arithmetic of R154 with the clash test of R155, for a piece of length L and lateness λ at any action list:
NONE has no firing; HALF fires once; THIRDS fires twice, or falls back to HALF with FOLD detail 2 where the two would
stand closer than Fr; a firing below 0 makes the fold impossible with detail 1; so does, with detail 3, a first firing
less than Fr after a blade firing in the list. -/
def Obligations.FoldFirings : Prop :=
  ∀ (im : Image) (actions : List Action) (l lateness : Nat),
    let at_ (f : Nat) : Int := (Image.word im 0x0FA : Int) + f - l - Image.word im 0x0FC - lateness
    let half := at_ (l / 2)
    let clash (first : Int) : Bool :=
      actions.any fun a => a.kind == .fireBlade && decide (first < a.countdown + Image.word im 0x0FE)
    foldArithmetic im actions .none l lateness = ⟨some [], []⟩
    ∧ foldArithmetic im actions .half l lateness =
        (if half < 0 then ⟨none, [1]⟩ else if clash half then ⟨none, [3]⟩ else ⟨some [half], []⟩)
    ∧ foldArithmetic im actions .thirds l lateness =
        (if 2 * l / 3 - l / 3 < Image.word im 0x0FE then
           if half < 0 then ⟨none, [2, 1]⟩ else if clash half then ⟨none, [2, 3]⟩ else ⟨some [half], [2]⟩
         else if at_ (l / 3) < 0 then ⟨none, [1]⟩
         else if clash (at_ (l / 3)) then ⟨none, [3]⟩
         else ⟨some [at_ (l / 3), at_ (2 * l / 3)], []⟩)

/-- The decision of a piece at the sort unit. Destination (R156): runout by stages 1 to 4, with no firings and no FOLD
(the model's reading, notes/assumptions/15.md), or by an impossible fold; else the stacker of its class, unless its
pre-stack is full, or holds another profile (that full is told before another profile is the model's choice, 24.md).
Route (R157, R153): parked or the same destination makes no switch; a gap of at least Vs switches with a SET ROUTE; a
smaller one makes the piece mixed on the last route decision. Actions (R158): placed as a set, a countdown of 0
performed at once; a list without room takes none of them, and the piece is mixed on the last route decision with ROUTE
detail 4, or detail 1 if mixed already. The piece is then counted, and the entry gap becomes 0 (R152). Of new actions of
equal countdown SET ROUTE stands first (the model's choice, 31.md). In the station: in JOINING and RUNNING at a SORT
station a piece is decided with the park and the image as they stand, the blade pulse of the image's width starting now;
the sort unit takes the decision whole and its occurrences follow in order (the model's reading, 7.md and, for their
order, 6.md); elsewhere a piece is nothing. -/
def Obligations.SortDecision : Prop :=
  (∀ (s : State) (p : SortPiece),
    let r := s.sort.decide s.image s.parked (.running (Image.byte s.image 0x0F9) s.timeBase) p
    (s.control.state = .joining ∨ s.control.state = .running → s.role = some .sort →
      s.sortPiece p = r.2.foldl State.occur { s with sort := r.1 })
    ∧ (¬ (s.control.state = .joining ∨ s.control.state = .running) ∨ s.role ≠ some .sort → s.sortPiece p = s)
    ∧ ∀ q : SortUnit × List Occurrence, s.withSort q = q.2.foldl State.occur { s with sort := q.1 })
  ∧ ∀ (u : SortUnit) (im : Image) (parked : Bool) (pulse : Timer) (p : SortPiece),
    let q := p.piece
    let v := Image.profile im q.profile
    let found := u.destination im parked p
    let whole := p.sighted = true ∧ p.degraded = false
    let f := foldArithmetic im u.actions (if whole then v.fold else .none)
      (if whole then q.measured.getD q.nominal else q.nominal) p.lateness
    let folds := f.details.map fun n => (⟨.fold, some q.tag, none, BitVec.ofNat 16 n⟩ : Occurrence)
    let route (n : Nat) : List Occurrence := [⟨.route, some q.tag, none, BitVec.ofNat 16 n⟩]
    let early : Prop := parked = true ∨ q.flags.stray = true ∨ v.identified = false
      ∨ (∀ c, v.stackClass = .stacker c → Image.byte im 0x0F8 ≤ c.val)
      ∨ ((q.flags.short = true ∨ q.flags.long = true) ∧ v.reject = true)
    let gap := if p.sighted then u.entryGap else 0
    let counted (w : SortUnit) (d : Dest) (mixed : Bool) (faults : List Occurrence) : SortUnit × List Occurrence :=
      ({ (w.count im d q mixed).1 with entryGap := 0 }, faults ++ (w.count im d q mixed).2)
    let blades (d : Dest) : List Action := if d = .runout then [] else found.firings.map fun n => ⟨.fireBlade, n⟩
    let switching : List Action :=
      ⟨.setRoute found.dest,
        max 0 ((Image.word im 0x100 : Int) - Image.word im 0x102
          - (if whole then q.measured.getD q.nominal else q.nominal) - p.lateness)⟩ :: blades found.dest
    let room (new : List Action) : Prop := u.actions.length + (new.filter fun a => a.countdown ≠ 0).length ≤ 16
    let refused (n : Nat) := counted u u.lastRoute true (found.faults ++ route n)
    (early → found = ⟨.runout, [], []⟩)
    ∧ (¬ early → f.firings = none → found = ⟨.runout, [], folds⟩)
    ∧ (∀ c fs, ¬ early → f.firings = some fs → v.stackClass = .stacker c →
        let k := u.stackers.get c
        let full : Prop := 3 ≤ k.pre.count ∨ (∃ x, k.pre.profile = some x ∧ (Image.profile im x).target ≤ k.pre.count)
          ∨ k.batchOwed = true
        let other : Prop := k.pre.count ≠ 0 ∧ k.pre.profile ≠ some q.profile
        (k.discharging = true → full → found = ⟨.runout, fs, folds ++ route 2⟩)
        ∧ (k.discharging = true → ¬ full → other → found = ⟨.runout, fs, folds ++ route 3⟩)
        ∧ (k.discharging = false ∨ (¬ full ∧ ¬ other) → found = ⟨.stacker c, fs, folds⟩))
    ∧ (parked = true ∨ found.dest = u.lastRoute →
        (room (blades found.dest) →
          u.decide im parked pulse p = counted (u.place pulse (blades found.dest)) found.dest false found.faults)
        ∧ (¬ room (blades found.dest) → u.decide im parked pulse p = refused 4))
    ∧ (parked = false → found.dest ≠ u.lastRoute → Image.word im 0x102 ≤ gap →
        (room switching → u.decide im parked pulse p =
          counted ({ u with lastRoute := found.dest }.place pulse switching) found.dest false found.faults)
        ∧ (¬ room switching → u.decide im parked pulse p = refused 4))
    ∧ (parked = false → found.dest ≠ u.lastRoute → gap < Image.word im 0x102 →
        (room (blades u.lastRoute) → u.decide im parked pulse p =
          counted (u.place pulse (blades u.lastRoute)) u.lastRoute true (found.faults ++ route 1))
        ∧ (¬ room (blades u.lastRoute) → u.decide im parked pulse p = refused 1))
    ∧ (u.place pulse [] = u ∧ ∀ a rest, u.place pulse (a :: rest) = SortUnit.place
        (if a.countdown ≠ 0 then { u with actions := insertAction a u.actions }
         else match a.kind with
          | .setRoute code => { u with route := code }
          | .fireBlade => { u with bladeTimer := pulse }) pulse rest)

/-- A discharge-done of a discharging stacker at a SORT station on the line (R165): the stack takes the pre-stack, the
pre-stack is emptied and the discharge output goes inactive; an owed batch, or a count that has reached the target, then
closes the stack. Any other discharge-done is nothing. -/
def Obligations.DischargeDone : Prop :=
  ∀ (s : State) (c : StackerNo),
    let k := s.sort.stackers.get c
    let none' : Stack := ⟨0, none, none, none, false, false⟩
    let moved : SortUnit := { s.sort with stackers := s.sort.stackers.set c ⟨false, k.pre, none', false⟩ }
    let full : Prop := k.pre.count ≠ 0
      ∧ (Image.profile s.image (k.pre.profile.getD 0)).target ≤ k.pre.count
    (s.onLine = false ∨ s.role ≠ some .sort ∨ k.discharging = false → exec (.dischargeDone c) s = .next s)
    ∧ (s.onLine = true → s.role = some .sort → k.discharging = true →
        (k.batchOwed = true → k.pre.count ≠ 0 →
          exec (.dischargeDone c) s = .next (s.withSort (moved.close c .batch)))
        ∧ (k.batchOwed = false → full → exec (.dischargeDone c) s = .next (s.withSort (moved.close c .count)))
        ∧ (k.batchOwed = true ∧ k.pre.count = 0 ∨ k.batchOwed = false ∧ ¬ full →
          exec (.dischargeDone c) s = .next { s with sort := moved }))

/-- How a stacker counts and closes. A piece counted on a COLLECTING stacker joins its stack, which closes at batch
close or at its target; one of another profile that is not mixed first closes the stack, and then stands in the
pre-stack (R162). On a DISCHARGING stacker it joins the pre-stack, but for a mixed piece that finds it full, which only
marks it (R163; that it changes nothing else is the model's reading, notes/assumptions/16.md). CLOSE STACK of a
collecting stacker with pieces (R164, R167, R169): a tally record with reason OPERATOR is added at the end of the queue,
the stacker is discharging with its stack and pre-stack empty, and its discharge output is active; a full tally queue
first loses its oldest record, with fault TALLY. A close for any other reason does the same with that reason. -/
def Obligations.StackersCountAndClose : Prop :=
  (∀ (u : SortUnit) (im : Image) (c : StackerNo) (q : Piece) (mixed : Bool),
    let k := u.stackers.get c
    let none' : Stack := ⟨0, none, none, none, false, false⟩
    let on (st : Stack) : Stack :=
      ⟨st.count + 1, if st.count = 0 then some q.profile else st.profile, if st.count = 0 then some q.tag else st.first,
        some q.tag, st.mixed || mixed, st.unverified || q.flags.unverified⟩
    let with_ (w : SortUnit) (x : Stacker) : SortUnit := { w with stackers := w.stackers.set c x }
    let full : Prop := 3 ≤ k.pre.count ∨ (∃ x, k.pre.profile = some x ∧ (Image.profile im x).target ≤ k.pre.count)
      ∨ k.batchOwed = true
    (k.discharging = false → k.stack.count = 0 ∨ k.stack.profile = some q.profile ∨ mixed = true →
      let w := with_ u { k with stack := on k.stack }
      u.count im (.stacker c) q mixed =
        if q.flags.batchClose then w.close c .batch
        else if (Image.profile im ((on k.stack).profile.getD 0)).target ≤ k.stack.count + 1 then w.close c .count
        else (w, []))
    ∧ (k.discharging = false → k.stack.count ≠ 0 → k.stack.profile ≠ some q.profile → mixed = false →
      let r := u.close c .profile
      u.count im (.stacker c) q mixed = (with_ r.1 ⟨true, none', on none', q.flags.batchClose⟩, r.2))
    ∧ (k.discharging = true → mixed = false ∨ ¬ full →
      u.count im (.stacker c) q mixed
        = (with_ u { k with pre := on k.pre, batchOwed := k.batchOwed || q.flags.batchClose }, []))
    ∧ (k.discharging = true → mixed = true → full →
      u.count im (.stacker c) q mixed = (with_ u { k with pre := { k.pre with mixed := true } }, [])))
  ∧ (∀ (u : SortUnit) (c : StackerNo) (reason : CloseReason),
    let k := u.stackers.get c
    let none' : Stack := ⟨0, none, none, none, false, false⟩
    let record : Tally :=
      ⟨c, k.stack.profile, k.stack.count, reason, k.stack.mixed, k.stack.unverified, k.stack.first, k.stack.last⟩
    let closed (tally : List Tally) : SortUnit :=
      { u with tally := tally, stackers := u.stackers.set c ⟨true, none', none', false⟩ }
    (u.tally.length < 16 → u.close c reason = (closed (u.tally ++ [record]), []))
    ∧ (∀ old rest, u.tally = old :: rest → 16 ≤ u.tally.length → u.close c reason
        = (closed (rest ++ [record]), [⟨.tally, old.first, none, BitVec.ofNat 16 old.count⟩])))
  ∧ (∀ (s : State) (b : Byte) (c : StackerNo), s.onLine = true → s.role = some .sort → b.toNat = c.val →
     let k := s.sort.stackers.get c
     k.discharging = false → k.stack.count ≠ 0 →
     let none' : Stack := ⟨0, none, none, none, false, false⟩
     let record : Tally :=
       ⟨c, k.stack.profile, k.stack.count, .operator, k.stack.mixed, k.stack.unverified, k.stack.first, k.stack.last⟩
     let closed (tally : List Tally) : State :=
       { s with sort := { s.sort with tally := tally, stackers := s.sort.stackers.set c ⟨true, none', none', false⟩ } }
     (s.sort.tally.length < 16 →
       exec (.closeStack b) s = .next (answered s (closed (s.sort.tally ++ [record])) 1 [0x00]))
     ∧ (∀ old rest, s.sort.tally = old :: rest → 16 ≤ s.sort.tally.length →
       exec (.closeStack b) s = .next (answered s
         (State.occur (closed (rest ++ [record])) ⟨.tally, old.first, none, BitVec.ofNat 16 old.count⟩) 1 [0x00]))
     ∧ (∀ t, exec (.closeStack b) s = .next t → t.discharge c = true))

/-- The lost batch close (R166): nothing for a piece of profile 0's values or of a stack class RUNOUT or at or above the
stacker count; a collecting stack with pieces closes with reason BATCH; a discharging stacker with a pre-stack owes the
batch; a stacker with nothing collected takes it as nothing. The runout count stays. At a SORT station on the line the
sort unit takes it so, and its occurrences follow. The runout count (R168): one more, held at 65535, for each piece
counted on the runout, mixed or not; a piece
with batch close then acts as a lost batch close; the count is shown in the status word of a SORT station, is 0 after
hard reset, and is kept by LEAVE and entry to LOCKOUT. -/
def Obligations.RunoutCount : Prop :=
  (∀ (u : SortUnit) (im : Image) (p : Piece),
    let v := Image.profile im p.profile
    (v.identified = false ∨ v.stackClass = .runout ∨ (∃ c, v.stackClass = .stacker c ∧ Image.byte im 0x0F8 ≤ c.val) →
      u.lostBatch im p = (u, []))
    ∧ (∀ c, v.identified = true → v.stackClass = .stacker c → c.val < Image.byte im 0x0F8 →
      let k := u.stackers.get c
      (k.discharging = false → k.stack.count ≠ 0 → u.lostBatch im p = u.close c .batch)
      ∧ (k.discharging = true → k.pre.count ≠ 0 →
        u.lostBatch im p = ({ u with stackers := u.stackers.set c { k with batchOwed := true } }, []))
      ∧ (k.discharging = false → k.stack.count = 0 → u.lostBatch im p = (u, []))
      ∧ (k.discharging = true → k.pre.count = 0 → u.lostBatch im p = (u, [])))
    ∧ (u.lostBatch im p).1.runout = u.runout)
  ∧ (∀ (s : State) (p : Piece), s.onLine = true → s.role = some .sort →
    let r := s.sort.lostBatch s.image p
    s.lostBatchClose p = r.2.foldl State.occur { s with sort := r.1 })
  ∧ (∀ (u : SortUnit) (im : Image) (p : Piece) (mixed : Bool),
    let v := { u with runout := if u.runout < 65535 then u.runout + 1 else 65535 }
    u.count im .runout p mixed = if p.flags.batchClose then v.lostBatch im p else (v, []))
  ∧ (∀ s : State, s.role = some .sort → s.sort.runout ≤ 65535 →
      (s.statusWord.drop 0x26).take 2
        = [BitVec.ofNat 8 (s.sort.runout / 256), BitVec.ofNat 8 (s.sort.runout % 256)])
  ∧ (∀ (pins : Pins) (s t : State), exec (.hardReset pins) s = .next t → t.sort.runout = 0)
  ∧ (∀ s t : State, exec .leave s = .next t → t.sort.runout = s.sort.runout)
  ∧ (∀ (s : State) (cause : LockoutCause), (s.lockOut cause).sort.runout = s.sort.runout)

/-! ### Outputs, reads and the image (chapters 10 and 11) -/

/-- The output lines follow the state: line stop exactly while the halt set is not empty (R64), which also holds off the
drop test; attention while a kind is pending or the tally queue, which is empty at a FEED or CHECK station (R187), holds
a record, and in LOCKOUT (R56, R178), shown in bit 5 of the status byte, and masked occurrences do not make it active;
clamp enable exactly while a FEED station is unparked with fewer than 2 records (R123). -/
def Obligations.OutputLines : Prop :=
  (∀ s : State, (s.lineStop = true ↔ s.control.haltSet ≠ 0)
    ∧ (∀ p, s.dropTest p = true → s.lineStop = false)
    ∧ (s.attention = true ↔ s.control.state = .lockout ∨ s.faults.pending ≠ 0 ∨ s.tallyQueue ≠ [])
    ∧ (s.role = some .sort → s.tallyQueue = s.sort.tally)
    ∧ (s.role = some .feed ∨ s.role = some .check → s.tallyQueue = [])
    ∧ (s.statusByte.getLsbD 5 = s.attention) ∧ (s.statusByte.getLsbD 4 = s.lineStop)
    ∧ (s.statusByte.getLsbD 3 = s.parked) ∧ (s.statusByte.getLsbD 6 = s.control.departure)
    ∧ (s.role = some .feed → (s.clampEnable = true ↔ s.parked = false ∧ s.feed.queue.length < 2))
    ∧ (s.running = false → s.parked = true ∧ s.clampEnable = false))
  ∧ (∀ (u : FaultUnit) (o : Occurrence), (u.policyFor o.kind).masked = true → (u.take o).pending = u.pending)

/-- READ STATUS and READ FAULTS (R186): 49 and 25 bytes after the result code, no other change, and the fields of a
block the role does not have read 0. The status word's bytes, in order, and the fault record's are those of the tables of
R190. That bits with no content there are 0, and a stacker's stack-profile bits and the first-halt reason and tag while
absent, is the model's choice (notes/assumptions/28.md), as is the sequence byte 0 of no tag (27.md), and that the route
byte shows the held code off the line is its reading (13.md). -/
def Obligations.ReadReports : Prop :=
  (∀ (s : State) (holdFault : Bool),
    (holdFault = true ↔ ∃ k : FaultKind, s.faults.pending.getLsbD k.place.val = true
      ∧ (s.faults.policyFor k).severity = .hold) →
    let n8 (n : Nat) : Byte := BitVec.ofNat 8 n
    let two (n : Nat) : List Byte := [n8 (n / 256), n8 (n % 256)]
    let bit (b : Bool) (n : Nat) : Nat := if b then 2 ^ n else 0
    let tag (t : Option Tag) : List Byte := match t with
      | none => [0, 0]
      | some x => [x.origin, x.seq]
    let eye (k : Lane) : Byte :=
      let e := s.eyes.get k
      n8 (bit e.blocked 0 + 2 * (match e.state with | .normal => 0 | .suspect => 1 | .stuck => 2 | .off => 3)
        + 16 * e.losses)
    let stacker (c : StackerNo) : List Byte :=
      let k := s.sort.stackers.get c
      [n8 (k.stack.count + bit k.discharging 7),
       n8 ((k.stack.profile.getD 0) + 16 * k.pre.count + bit k.batchOwed 6 + bit k.stack.profile.isSome 7)]
    let own := s.feed.map.find? fun x => x.kind == .ownHole
    let record : List Byte := match s.faults.first with
      | none => [0, 0, 0, 0, 0, 0]
      | some o => [n8 o.kind.number, n8 (match o.lane with | none => 0 | some k => k.val + 1)] ++ tag o.tag
          ++ two o.detail.toNat
    let feed : Prop := s.role = some .feed
    let station : List Byte :=
      [n8 (match s.control.state with
         | .unconfigured => 0 | .configured => 1 | .joining => 2 | .running => 3 | .lockout => 4),
       n8 (match s.control.lockoutCause with | none => 0 | some (.ownAddress kind) => kind | some .failedPresent => 8),
       n8 (bit s.parked 0 + bit s.travel.lost 1 + bit s.control.holdInput 2 + bit holdFault 3
         + bit s.control.restartFlag 4 + bit s.control.departure 5 + bit s.spi.frozen 6 + bit s.travel.beltRun 7),
       n8 (bit s.port.offLine 0 + (if feed then bit s.feed.batchLatch 1 + bit s.feed.ready 2
           + 8 * (match s.feed.handshake with | .waiting => 0 | .ready => 1 | .clearing => 2) else 0)
         + bit s.faults.more 5)]
      ++ two s.control.haltSet.toNat
      ++ (match s.control.firstHalt with
          | none => [0, 0, 0, 0]
          | some f => [n8 f.address, n8 f.reason] ++ tag f.tag)
      ++ two s.travel.count.toNat ++ [s.control.seq, n8 s.port.failures, n8 s.port.queue.length]
    let tracker : List Byte := if s.role = some .check ∨ s.role = some .sort then
        [n8 s.tracker.entries.length,
         n8 (([0, 1, 2, 3] : List Lane).countP (fun k => (s.tracker.orphans.get k).isSome)
           + 16 * s.tracker.adopted.length)]
      else [0, 0]
    let belt : List Byte := if feed then
        [n8 s.feed.queue.length, n8 s.feed.map.length] ++ two s.feed.patience
        ++ [n8 ((match own with | none => 0 | some x => if x.confirmed then 2 else 1)
            + 4 * (match s.hole.frame with | .none => 0 | .current => 1 | .abandoned => 2))]
        ++ two (BitVec.ofInt 16 (match own with | none => 0 | some x => x.head)).toNat
      else List.replicate 7 0
    let sorting : List Byte := if s.role = some .sort then
        [n8 s.sort.actions.length, n8 (match s.sort.route with | .stacker c => c.val | .runout => 4)]
        ++ stacker 0 ++ stacker 1 ++ stacker 2 ++ stacker 3 ++ two s.sort.runout ++ [n8 s.sort.tally.length]
      else List.replicate 13 0
    s.statusWord
      = station ++ tracker ++ [eye 0, eye 1, eye 2, eye 3] ++ belt ++ sorting ++ two s.faults.pending.toNat ++ record
    ∧ faultRecord s.faults.first = record)
  ∧ ∀ s : State,
    exec .readStatus s = .next (answered s s 0 (0x00 :: s.statusWord)) ∧ s.statusWord.length = 49
    ∧ exec .readFaults s = .next (answered s s 0 (0x00 ::
        ([BitVec.ofNat 8 (s.faults.pending.toNat / 256), BitVec.ofNat 8 (s.faults.pending.toNat % 256),
          if s.faults.more then 1 else 0] ++ faultRecord s.faults.first
          ++ s.faults.counts.toList.map (fun n => BitVec.ofNat 8 n))))
    ∧ (faultRecord s.faults.first).length = 6 ∧ s.faultReport.length = 25
    ∧ (s.role = some .feed → (s.statusWord.drop 0x0F).take 2 = [0, 0])
    ∧ (s.role ≠ some .feed → (s.statusWord.drop 0x15).take 7 = [0, 0, 0, 0, 0, 0, 0])
    ∧ (s.role ≠ some .sort → (s.statusWord.drop 0x1C).take 13 = List.replicate 13 0)
    ∧ (∃ b : Byte, s.statusWord[0x03]? = some b ∧ (s.role ≠ some .feed → b &&& 0x1E = 0))

/-- READ TALLY and READ IMAGE (R183, R187): at a SORT station the m oldest records are returned and removed, with one
end record of nine zeros where fewer than n were held; at a FEED or CHECK station only the end record is returned, and
nothing changes (that records which a SORT station left stay out of sight is the model's choice,
notes/assumptions/12.md); the image bytes are returned as they stand. The nine bytes of a tally record (R190): stacker,
profile, count, reason, the bits mixed and unverified-contained, first tag and last tag; that the profile byte of a stack
with no profile and bits 2..7 of byte 4 are 0 is the model's choice (28.md), and so is the sequence byte beside the
origin 0 of no tag (27.md). -/
def Obligations.ReadTallyAndImage : Prop :=
  ∀ s : State,
    (∀ n : Byte, 1 ≤ n.toNat → n.toNat ≤ 16 →
      (s.role = some .sort → exec (.readTally n) s = .next (answered s
        { s with sort := { s.sort with tally := s.sort.tally.drop n.toNat } } 1
        (0x00 :: ((s.sort.tally.take n.toNat).flatMap Tally.report
          ++ if s.sort.tally.length < n.toNat then [0, 0, 0, 0, 0, 0, 0, 0, 0] else []))))
      ∧ (s.role = some .feed ∨ s.role = some .check →
        exec (.readTally n) s = .next (answered s s 1 [0x00, 0, 0, 0, 0, 0, 0, 0, 0, 0])))
    ∧ (∀ t : Tally, t.report.length = 9 ∧ t.report =
        [BitVec.ofNat 8 t.stacker.val, match t.profile with | none => 0 | some p => BitVec.ofNat 8 p, BitVec.ofNat 8 t.count,
         match t.reason with | .count => 1 | .batch => 2 | .profile => 3 | .operator => 4,
         (if t.mixed then 0x01 else 0x00) ||| (if t.unverified then 0x02 else 0x00),
         match t.first with | none => 0 | some g => g.origin, match t.first with | none => 0 | some g => g.seq,
         match t.last with | none => 0 | some g => g.origin, match t.last with | none => 0 | some g => g.seq])
    ∧ (∀ (o : BitVec 16) (n : Byte), 1 ≤ n.toNat → n.toNat ≤ 64 → o.toNat + n.toNat ≤ 320 → s.spi.image.length = 320 →
        ∃ bytes : List Byte, exec (.readImage o n) s = .next (answered s s 3 (0x00 :: bytes))
          ∧ bytes.length = n.toNat
          ∧ ∀ i, i < n.toNat → bytes[i]? = s.spi.image[o.toNat + i]?)

/-- WRITE CONFIG and VALIDATE while the image is not frozen and no departure lasts (R52, R183, R184): the data bytes
take the place of the image bytes from the offset upward, no other byte changes, and a CONFIGURED station becomes
UNCONFIGURED; a VALIDATE makes the station CONFIGURED, or UNCONFIGURED with code 05h and the offset of the first failing
field: 13Eh where the image sum is wrong, else the lowest offset at which a field lies outside its Valid column (R189) or
fails a test of R184 on the home lane, a listen entry or a profile entry; it fails exactly where there is one. That a
failing fault-policy byte is named by its own offset 12Eh + k is the model's choice (notes/assumptions/25.md). -/
def Obligations.WriteConfigAndValidate : Prop :=
  ∀ s : State, s.spi.frozen = false → s.control.departure = false → s.spi.image.length = 320 →
    (∀ (o : BitVec 16) (data : List Byte), 1 ≤ data.length → data.length ≤ 64 → o.toNat + data.length ≤ 320 →
      ∃ im : Image, exec (.writeConfig o data) s = .next (answered s
          { s with
            spi := { s.spi with image := im }
            control := { s.control with
              state := if s.control.state = .configured then .unconfigured else s.control.state } } (3 + data.length) [0x00])
        ∧ im.length = 320
        ∧ (∀ i, i < data.length → im[o.toNat + i]? = data[i]?)
        ∧ (∀ i, i < o.toNat ∨ o.toNat + data.length ≤ i → im[i]? = s.spi.image[i]?))
    ∧ (Image.firstFailure s.image = none → exec .validate s = .next
        (answered s { s with control := { s.control with state := .configured } } 0 [0x00]))
    ∧ (∀ o, Image.firstFailure s.image = some o → exec .validate s = .next
        (answered s { s with control := { s.control with state := .unconfigured } }
          0 [0x05, BitVec.ofNat 8 (o / 256), BitVec.ofNat 8 (o % 256)]))
    ∧ (((s.image.take 0x13E).map BitVec.toNat).sum % 65536 ≠ Image.word s.image 0x13E →
        Image.firstFailure s.image = some 0x13E)
    ∧ (Image.firstFailure s.image = none →
        1 ≤ Image.byte s.image 0x000 ∧ Image.byte s.image 0x000 ≤ 15
        ∧ 1 ≤ Image.byte s.image 0x001 ∧ Image.byte s.image 0x001 ≤ 3
        ∧ 1 ≤ Image.byte s.image 0x002 ∧ Image.byte s.image 0x002 ≤ 4
        ∧ 16 ≤ Image.word s.image 0x004 ∧ Image.word s.image 0x004 ≤ 4095)
    ∧ (let b (o : Nat) : Nat := Image.byte s.image o
       let w (o : Nat) : Nat := Image.word s.image o
       let feed : Prop := b 0x001 = 1
       let station (o : Nat) : Prop :=
         (o = 0x000 ∧ (b o < 1 ∨ 15 < b o)) ∨ ((o = 0x001 ∨ o = 0x003) ∧ (b o < 1 ∨ 3 < b o))
         ∨ (o = 0x002 ∧ (b o < 1 ∨ 4 < b o)) ∨ (o = 0x004 ∧ (w o < 16 ∨ 4095 < w o)) ∨ (o = 0x006 ∧ b o < 1)
         ∨ ((o = 0x007 ∨ o = 0x008 ∨ o = 0x009) ∧ 15 < b o) ∨ (o = 0x00A ∧ w o < 500) ∨ (o = 0x00C ∧ 8191 < w o)
         ∨ (o = 0x011 ∧ feed ∧ (b o < 1 ∨ b 0x002 < b o)) ∨ ((o = 0x012 ∨ o = 0x014) ∧ 1023 < w o)
         ∨ ((o = 0x016 ∨ o = 0x01A) ∧ 4095 < w o) ∨ (o = 0x018 ∧ (w o < 1000 ∨ 32767 < w o))
         ∨ (o = 0x01E ∧ b o < 20) ∨ (o = 0x01F ∧ b o < 10)
       let listen (o : Nat) : Prop := ∃ i, i < 8 ∧ b (0x020 + 3 * i) ≠ 0
         ∧ ((o = 0x020 + 3 * i ∧ (15 < b o ∨ b o = b 0x000 ∨ ∃ j, j < i ∧ b (0x020 + 3 * j) = b o))
           ∨ (o = 0x021 + 3 * i ∧ ¬ feed ∧ 32768 ≤ w o))
       let profile (o : Nat) : Prop := ∃ p, 1 ≤ p ∧ p ≤ 15 ∧ w (0x038 + 12 * p) ≠ 0
         ∧ ((o = 0x038 + 12 * p ∧ 6000 < w o)
           ∨ ((o = 0x03A + 12 * p ∨ o = 0x03C + 12 * p ∨ o = 0x03E + 12 * p) ∧ 1023 < w o)
           ∨ (o = 0x040 + 12 * p ∧ 1 < b o) ∨ (o = 0x041 + 12 * p ∧ 2 < b o) ∨ (o = 0x042 + 12 * p ∧ 4 < b o)
           ∨ (o = 0x043 + 12 * p ∧ (b o % 64 = 0 ∨ (b o).testBit 6 = true)))
       let sorting (o : Nat) : Prop :=
         (o = 0x0F8 ∧ 4 < b o) ∨ (o = 0x0F9 ∧ b o < 20) ∨ ((o = 0x0FA ∨ o = 0x100) ∧ 8191 < w o)
         ∨ ((o = 0x0FC ∨ o = 0x102) ∧ 1023 < w o) ∨ (o = 0x0FE ∧ 2047 < w o)
       let policy (o : Nat) : Prop := 0x12E ≤ o ∧ o < 0x13E ∧ ∃ n, 2 ≤ n ∧ n ≤ 6 ∧ (b o).testBit n = true
       let fails (o : Nat) : Prop := station o ∨ listen o ∨ profile o ∨ sorting o ∨ policy o
       ((s.image.take 0x13E).map BitVec.toNat).sum % 65536 = w 0x13E →
         (∀ o, Image.firstFailure s.image = some o ↔ fails o ∧ ∀ n, n < o → ¬ fails n)
         ∧ (Image.firstFailure s.image = none ↔ ∀ o, ¬ fails o))

/-! ### Whole-machine rules and the laws kept by every step -/

/-- The sequence counter (R18): a draw gives its value and advances it by one, 255 going to 0; it is 0 after hard reset,
LEAVE and entry to LOCKOUT keep it, no command but those at which a tag is drawn changes it, and the status word shows
it. -/
def Obligations.SequenceCounter : Prop :=
  (∀ s : State, (s.draw).1.seq = s.control.seq
    ∧ (s.draw).2 = { s with control := { s.control with seq := BitVec.ofNat 8 ((s.control.seq.toNat + 1) % 256) } }
    ∧ ((s.draw).2.draw).1.seq ≠ (s.draw).1.seq
    ∧ s.statusWord[0x0C]? = some s.control.seq)
  ∧ (∀ (pins : Pins) (s t : State), exec (.hardReset pins) s = .next t → t.control.seq = 0)
  ∧ (∀ (s : State) (cause : LockoutCause), (s.lockOut cause).control.seq = s.control.seq)
  ∧ (∀ (c : Instr) (s t : State), exec c s = .next t → ¬ mayDraw c → (∀ pins, c ≠ .hardReset pins) →
      t.control.seq = s.control.seq)

/-- The moves between the station states are those of the table of chapter 4, each made by the commands of its rule (R51
to R55, R68), and on the line and in LOCKOUT the image does not change but at a hard reset (the law of R183). -/
def Obligations.StationMovesAndImage : Prop :=
  ∀ (c : Instr) (s t : State), Standing s → exec c s = .next t →
    (t.control.state ≠ s.control.state → mayMove c s.control.state t.control.state)
    ∧ (s.control.state = .joining ∨ s.control.state = .running ∨ s.control.state = .lockout →
        (∀ pins, c ≠ .hardReset pins) → t.spi.image = s.spi.image)

/-- A kind leaves the pending set only by ACK FAULTS or hard reset, and no count falls but at a hard reset (R172, R173). -/
def Obligations.PendingStaysUntilAcknowledged : Prop :=
  ∀ (c : Instr) (s t : State), exec c s = .next t → (∀ pins, c ≠ .hardReset pins) →
    ((∀ kinds, c ≠ .ackFaults kinds) → ∀ k : FaultKind, s.faults.isPending k = true → t.faults.isPending k = true)
    ∧ ((∀ j : Fin 16, s.faults.counts[j] ≤ 255) → ∀ j : Fin 16, s.faults.counts[j] ≤ t.faults.counts[j])

/-- Every step keeps the ties of the station state (R51 to R53, R55, R69, R183). -/
def Obligations.StandingKept : Prop := ∀ s t : State, Standing s → step s = .next t → Standing t

/-- Every step keeps the halt set's laws (R62, R63, R65, R67). That the own halt's reason leaves with the own address at
LEAVE and entry to LOCKOUT is the model's reading (notes/assumptions/17.md). -/
def Obligations.HaltLawKept : Prop :=
  ∀ s t : State, Standing s → PortLaw s → HaltLaw s → step s = .next t → HaltLaw t

/-- Every step keeps the line port's laws (R29, R36, R38, R39). -/
def Obligations.PortLawKept : Prop :=
  ∀ s t : State, Standing s → HaltLaw s → PortLaw s → step s = .next t → PortLaw t

/-- Every step keeps the belt map's and the hole unit's laws (R39, R41, R126, R141). -/
def Obligations.HoleLawKept : Prop :=
  ∀ s t : State, Standing s → HaltLaw s → PortLaw s → AtRest s → HoleLaw s → step s = .next t → HoleLaw t

/-- Every step keeps the capacities and ranges (R71, R121, R128, R138, R153, R158, R168, R169, R172). -/
def Obligations.CapacitiesKept : Prop := ∀ s t : State, Capacities s → step s = .next t → Capacities t

/-- Every step keeps the sort unit's laws: the stackers' (R161, R163) and the action list's (R155, R158, R159). -/
def Obligations.SortLawsKept : Prop :=
  ∀ s t : State, Standing s → StackerLaw s → ActionLaw s → step s = .next t → StackerLaw t ∧ ActionLaw t

/-- Every step keeps the expectation list's laws (R71, R72, R76). -/
def Obligations.ListLawKept : Prop := ∀ s t : State, ListLaw s → step s = .next t → ListLaw t

/-- Every step keeps the role blocks and the travel unit at rest off the line (R7, R11, R94, R120, R140, R141, R170).
Among the values at rest, the tag last dropped being none (notes/assumptions/17.md) and the placing counter being 0
(22.md) are the model's choices. -/
def Obligations.AtRestKept : Prop :=
  ∀ s t : State, Standing s → AtRest s → step s = .next t → AtRest t

/-! ### Encodings (chapters 3 and 11) -/

/-- The bits a sender drives for any identifier and up to 8 data bytes are followed by a receiver to the end of the
frame, and read as that identifier, those bytes and the right check (R31, R32, R33). A stuff bit may follow the last
check bit (the model's reading, notes/assumptions/8.md). -/
def Obligations.FrameRoundTrip : Prop :=
  ∀ (ident : Byte) (data : List Byte), data.length ≤ 8 →
    follow (frameBits ident data) = .ended ⟨ident, data, frameCheck (coveredBits ident data)⟩

/-- Bytes read back. The data bytes of a notice whose fields fit its layout read back as that notice, and are of the
length that R34 gives its kind: 1 for a HALT with no tag and 3 for one with a tag, 0 for RESUME, 3 for LOSS, 8 for PASS
and DROP, 7 for HOLE, 4 for PRESENT (R34, R188). The bytes of every well-formed command of the processor port are taken
as that command, whatever is clocked after the take; a transaction of fewer bytes is cut short (R181, R182). -/
def Obligations.BytesRoundTrip : Prop :=
  (∀ n : Notice, n.fits → noticeOf n.code n.bytes = some n ∧ n.bytes.length ≤ 8
    ∧ n.bytes.length = match n with
      | .halt _ none => 1
      | .halt _ (some _) => 3
      | .resume => 0
      | .loss .. => 3
      | .pass .. => 8
      | .drop .. => 8
      | .hole .. => 7
      | .present .. => 4)
  ∧ (∀ (c : Instr) (bytes extra : List Byte), c.wellFormed = true → encodeTransaction c = some bytes →
     (c ≠ .transactionCutShort false → decodeTransaction (bytes ++ extra) = c)
     ∧ (∀ n, n < bytes.length → decodeTransaction (bytes.take n) = .transactionCutShort false))
end

