-- ==== Sys2Proof/Laws/Lists.lean ====
section
/-! SUPPORT. What the operations on groups and on ordered lists can do: the four members of a group, the transmit
queue, the belt map, the expectation list and the action list; what holds a distance in its range; and a start bit. -/

namespace Sys2Proof

/-! ### Groups of four -/

@[simp] theorem Quad.get_set_same {α : Type} (v : Quad α) (k : Fin 4) (x : α) : (v.set k x).get k = x := by
  fin_cases k <;> rfl

theorem Quad.get_set_other {α : Type} (v : Quad α) (j k : Fin 4) (x : α) (h : j ≠ k) : (v.set k x).get j = v.get j := by
  fin_cases j <;> fin_cases k <;> first | rfl | exact absurd rfl h

theorem Quad.get_set {α : Type} (v : Quad α) (j k : Fin 4) (x : α) :
    (v.set k x).get j = if j = k then x else v.get j := by
  by_cases h : j = k
  · subst h; simp
  · simp [h, Quad.get_set_other v j k x h]

@[simp] theorem Quad.set_set {α : Type} (v : Quad α) (k : Fin 4) (x y : α) : (v.set k x).set k y = v.set k y := by
  fin_cases k <;> rfl

@[simp] theorem Quad.get_all {α : Type} (k : Fin 4) (x : α) : (Quad.all x).get k = x := by
  fin_cases k <;> rfl

@[simp] theorem Quad.get_mapAt {α β : Type} (f : Fin 4 → α → β) (v : Quad α) (k : Fin 4) :
    (v.mapAt f).get k = f k (v.get k) := by
  fin_cases k <;> rfl

theorem Quad.ext_get {α : Type} {v w : Quad α} (h : ∀ k, v.get k = w.get k) : v = w := by
  cases v; cases w
  have h0 := h 0; have h1 := h 1; have h2 := h 2; have h3 := h 3
  simp_all [Quad.get]

namespace Machine

/-! ### The transmit queue (R39, R40) -/

theorem insertSlot_perm (x : Slot) (q : List Slot) : (insertSlot x q).Perm (x :: q) := by
  induction q with
  | nil => exact List.Perm.refl _
  | cons y q ih =>
    simp only [insertSlot]
    split
    · exact (ih.cons y).trans (List.Perm.swap x y q)
    · exact List.Perm.refl _

@[simp] theorem insertSlot_length (x : Slot) (q : List Slot) : (insertSlot x q).length = q.length + 1 := by
  simpa using (insertSlot_perm x q).length_eq

theorem insertSlot_sorted (x : Slot) (q : List Slot)
    (h : q.Pairwise fun a b => a.notice.code ≤ b.notice.code) :
    (insertSlot x q).Pairwise fun a b => a.notice.code ≤ b.notice.code := by
  induction q with
  | nil => simp [insertSlot]
  | cons y q ih =>
    obtain ⟨hy, hq⟩ := List.pairwise_cons.mp h
    simp only [insertSlot]
    split
    next hle =>
      refine List.pairwise_cons.mpr ⟨fun z hz => ?_, ih hq⟩
      rcases List.mem_cons.mp ((insertSlot_perm x q).mem_iff.mp hz) with rfl | hz
      · exact hle
      · exact hy z hz
    next hlt =>
      refine List.pairwise_cons.mpr ⟨fun z hz => ?_, h⟩
      rcases List.mem_cons.mp hz with rfl | hz
      · omega
      · have := hy z hz; omega

/-- The last waiting frame is a frame of the queue that waits, and the rest of the queue keeps its order. -/
theorem takeLastWaiting_spec (q : List Slot) (y : Slot) (others : List Slot)
    (h : takeLastWaiting q = some (y, others)) :
    ∃ l r, q = l ++ y :: r ∧ others = l ++ r ∧ y.inSend = false ∧ ∀ z ∈ r, z.inSend = true := by
  induction q generalizing others with
  | nil => simp [takeLastWaiting] at h
  | cons x q ih =>
    simp only [takeLastWaiting] at h
    split at h
    next z rest hz =>
      obtain ⟨rfl, rfl⟩ : z = y ∧ x :: rest = others := by simpa using h
      obtain ⟨l, r, rfl, rfl, hy, hr⟩ := ih rest hz
      exact ⟨x :: l, r, rfl, rfl, hy, hr⟩
    next hn =>
      split at h
      · simp at h
      next hx =>
        obtain ⟨rfl, rfl⟩ : x = y ∧ q = others := by simpa using h
        refine ⟨[], q, rfl, rfl, by simpa using hx, ?_⟩
        clear ih h hx
        induction q with
        | nil => simp
        | cons w q ih =>
          simp only [takeLastWaiting] at hn
          split at hn
          · simp at hn
          next hq =>
            split at hn
            · rename_i hw; intro z hz
              rcases List.mem_cons.mp hz with rfl | hz
              · simpa using hw
              · exact ih hq z hz
            · simp at hn

/-- All that adding a frame to a queue can do: the frame enters, or the last waiting frame of a higher kind makes room
for it, or it is itself put out. -/
theorem putFrame_cases (q : List Slot) (x : Slot) :
    (q.length < 8 ∧ putFrame q x = (insertSlot x q, none))
    ∨ (∃ l y r, 8 ≤ q.length ∧ q = l ++ y :: r ∧ y.inSend = false ∧ x.notice.code < y.notice.code
        ∧ putFrame q x = (insertSlot x (l ++ r), some y))
    ∨ (8 ≤ q.length ∧ putFrame q x = (q, some x)) := by
  unfold putFrame Config.queueCapacity
  split
  next h => exact .inl ⟨h, rfl⟩
  next h =>
    have h : 8 ≤ q.length := by omega
    split
    · exact .inr (.inr ⟨h, rfl⟩)
    next y others ht =>
      obtain ⟨l, r, hq, rfl, hy, -⟩ := takeLastWaiting_spec q y others ht
      split
      next hc => exact .inr (.inl ⟨l, y, r, h, hq, hy, hc, rfl⟩)
      · exact .inr (.inr ⟨h, rfl⟩)

theorem putFrame_length (q : List Slot) (x : Slot) (h : q.length ≤ 8) : (putFrame q x).1.length ≤ 8 := by
  rcases putFrame_cases q x with ⟨h', e⟩ | ⟨l, y, r, -, rfl, -, -, e⟩ | ⟨-, e⟩
  · rw [e]; simp; omega
  · rw [e]; simp at h ⊢; omega
  · rw [e]; exact h

/-! ### The belt map (R126) -/

theorem insertStretch_perm (x : Stretch) (m : List Stretch) : (insertStretch x m).Perm (x :: m) := by
  induction m with
  | nil => exact List.Perm.refl _
  | cons y m ih =>
    simp only [insertStretch]
    split
    · exact (ih.cons y).trans (List.Perm.swap x y m)
    · exact List.Perm.refl _

@[simp] theorem insertStretch_length (x : Stretch) (m : List Stretch) :
    (insertStretch x m).length = m.length + 1 := by
  simpa using (insertStretch_perm x m).length_eq

theorem mem_insertStretch (x y : Stretch) (m : List Stretch) : y ∈ insertStretch x m ↔ y = x ∨ y ∈ m := by
  rw [(insertStretch_perm x m).mem_iff, List.mem_cons]

/-! ### The expectation list (R72) -/

theorem insertEntry_perm (x : Entry) (l : List Entry) : (insertEntry x l).Perm (x :: l) := by
  induction l with
  | nil => exact List.Perm.refl _
  | cons y l ih =>
    simp only [insertEntry]
    split
    · exact (ih.cons y).trans (List.Perm.swap x y l)
    · exact List.Perm.refl _

@[simp] theorem insertEntry_length (x : Entry) (l : List Entry) : (insertEntry x l).length = l.length + 1 := by
  simpa using (insertEntry_perm x l).length_eq

theorem Entry.before_iff (a b : Entry) :
    a.before b = true ↔ a.remaining < b.remaining ∨ (a.remaining = b.remaining ∧ a.placing ≤ b.placing) := by
  simp [Entry.before]

theorem Entry.before_total (a b : Entry) : a.before b = true ∨ b.before a = true := by
  rw [Entry.before_iff, Entry.before_iff]; omega

theorem Entry.before_trans {a b c : Entry} (h : a.before b = true) (h' : b.before c = true) : a.before c = true := by
  rw [Entry.before_iff] at *; omega

theorem insertEntry_sorted (x : Entry) (l : List Entry) (h : l.Pairwise fun a b => a.before b = true) :
    (insertEntry x l).Pairwise fun a b => a.before b = true := by
  induction l with
  | nil => simp [insertEntry]
  | cons y l ih =>
    obtain ⟨hy, hl⟩ := List.pairwise_cons.mp h
    simp only [insertEntry]
    split
    next hle =>
      refine List.pairwise_cons.mpr ⟨fun z hz => ?_, ih hl⟩
      rcases List.mem_cons.mp ((insertEntry_perm x l).mem_iff.mp hz) with rfl | hz
      · exact hle
      · exact hy z hz
    next hlt =>
      have hxy : x.before y = true := (Entry.before_total x y).resolve_right hlt
      refine List.pairwise_cons.mpr ⟨fun z hz => ?_, h⟩
      rcases List.mem_cons.mp hz with rfl | hz
      · exact hxy
      · exact Entry.before_trans hxy (hy z hz)

theorem orderEntries_perm (l : List Entry) : (orderEntries l).Perm l := by
  induction l with
  | nil => exact List.Perm.refl _
  | cons x l ih => exact (insertEntry_perm x _).trans (ih.cons x)

theorem orderEntries_sorted (l : List Entry) : (orderEntries l).Pairwise fun a b => a.before b = true := by
  induction l with
  | nil => simp [orderEntries]
  | cons x l ih => exact insertEntry_sorted x _ ih

/-- The entry of a tag, where the tracker finds one. -/
theorem Tracker.find_some {t : Tracker} {tag : Tag} {e : Entry} (h : t.find tag = some e) :
    e ∈ t.entries ∧ e.piece.tag = tag := by
  refine ⟨List.mem_of_find?_eq_some h, ?_⟩
  simpa using List.find?_some h

theorem Tracker.find_none {t : Tracker} {tag : Tag} (h : t.find tag = none) : ∀ e ∈ t.entries, e.piece.tag ≠ tag := by
  intro e he
  simpa using List.find?_eq_none.mp h e he

/-! ### The action list (R158) -/

theorem insertAction_perm (x : Action) (l : List Action) : (insertAction x l).Perm (x :: l) := by
  induction l with
  | nil => exact List.Perm.refl _
  | cons y l ih =>
    simp only [insertAction]
    split
    · exact (ih.cons y).trans (List.Perm.swap x y l)
    · exact List.Perm.refl _

@[simp] theorem insertAction_length (x : Action) (l : List Action) : (insertAction x l).length = l.length + 1 := by
  simpa using (insertAction_perm x l).length_eq

/-! ### Distances held in range (00_scope, Widths and saturation) -/

theorem sat16_range (x : Int) : -32768 ≤ sat16 x ∧ sat16 x ≤ 32767 := by
  unfold sat16; omega

theorem satU16_le (x : Int) : satU16 x ≤ 65535 := by
  unfold satU16; omega

theorem addTravel_le (n : Nat) (d : Int) : addTravel n d ≤ 65535 := satU16_le _

theorem addTravel_eq_heldSum (n : Nat) (d : Int) : addTravel n d = heldSum n d := by
  unfold addTravel satU16 heldSum
  split
  · omega
  · split <;> omega

/-- A passage's travel on an advance: at 65535 it stays, else it moves and is held in its range (R108). -/
theorem Passage.advance_travel (g : Passage) (d : Int) :
    (g.advance d).travel = if 65535 ≤ g.travel then g.travel else heldSum g.travel d := by
  simp only [Passage.advance, addTravel_eq_heldSum]

@[simp] theorem Passage.advance_seen (g : Passage) (d : Int) : (g.advance d).seen = g.seen := rfl
@[simp] theorem Passage.advance_blocked (g : Passage) (d : Int) : (g.advance d).blocked = g.blocked := rfl
@[simp] theorem Passage.advance_degraded (g : Passage) (d : Int) : (g.advance d).degraded = g.degraded := rfl
@[simp] theorem Passage.advance_stuck (g : Passage) (d : Int) : (g.advance d).stuck = g.stuck := rfl

/-! ### A start bit of another station's frame (R30) -/

/-- All that a start bit can do: at an idle medium an active port follows the frame, else nothing changes. -/
theorem LinePort.readStartBit_cases (p : LinePort) :
    (p.active = true ∧ p.medium = .idle ∧ p.readStartBit = { p with medium := .following false })
    ∨ (¬ (p.active = true ∧ p.medium = .idle) ∧ p.readStartBit = p) := by
  unfold LinePort.readStartBit
  split
  · next h => exact .inl ⟨h.1, h.2, rfl⟩
  · next h => exact .inr ⟨h, rfl⟩

@[simp] theorem LinePort.readStartBit_active (p : LinePort) : p.readStartBit.active = p.active := by
  unfold LinePort.readStartBit; split <;> rfl
@[simp] theorem LinePort.readStartBit_queue (p : LinePort) : p.readStartBit.queue = p.queue := by
  unfold LinePort.readStartBit; split <;> rfl
@[simp] theorem LinePort.readStartBit_failures (p : LinePort) : p.readStartBit.failures = p.failures := by
  unfold LinePort.readStartBit; split <;> rfl
@[simp] theorem LinePort.readStartBit_offLine (p : LinePort) : p.readStartBit.offLine = p.offLine := by
  unfold LinePort.readStartBit; split <;> rfl
@[simp] theorem LinePort.readStartBit_offLineTimer (p : LinePort) : p.readStartBit.offLineTimer = p.offLineTimer := by
  unfold LinePort.readStartBit; split <;> rfl

end Machine

end Sys2Proof
end

