-- ==== Sys2Proof/Laws/State.lean ====
section
/-! SUPPORT. One lemma per field per update: what each plain update of State leaves as it was. All are true by `rfl`. -/

namespace Sys2Proof.Machine

open Sys2Proof

/-! ### The port waiting for the medium to be idle (R30) -/

@[simp] theorem State.waitIdle_timeBase (s : State) : s.waitIdle.timeBase = s.timeBase := rfl
@[simp] theorem State.waitIdle_travel (s : State) : s.waitIdle.travel = s.travel := rfl
@[simp] theorem State.waitIdle_eyes (s : State) : s.waitIdle.eyes = s.eyes := rfl
@[simp] theorem State.waitIdle_control (s : State) : s.waitIdle.control = s.control := rfl
@[simp] theorem State.waitIdle_tracker (s : State) : s.waitIdle.tracker = s.tracker := rfl
@[simp] theorem State.waitIdle_feed (s : State) : s.waitIdle.feed = s.feed := rfl
@[simp] theorem State.waitIdle_hole (s : State) : s.waitIdle.hole = s.hole := rfl
@[simp] theorem State.waitIdle_sort (s : State) : s.waitIdle.sort = s.sort := rfl
@[simp] theorem State.waitIdle_faults (s : State) : s.waitIdle.faults = s.faults := rfl
@[simp] theorem State.waitIdle_spi (s : State) : s.waitIdle.spi = s.spi := rfl
@[simp] theorem State.waitIdle_pending (s : State) : s.waitIdle.pending = s.pending := rfl

/-! ### The clear of the queue (R43) -/

@[simp] theorem State.clearPort_timeBase (s : State) : s.clearPort.timeBase = s.timeBase := rfl
@[simp] theorem State.clearPort_travel (s : State) : s.clearPort.travel = s.travel := rfl
@[simp] theorem State.clearPort_eyes (s : State) : s.clearPort.eyes = s.eyes := rfl
@[simp] theorem State.clearPort_control (s : State) : s.clearPort.control = s.control := rfl
@[simp] theorem State.clearPort_tracker (s : State) : s.clearPort.tracker = s.tracker := rfl
@[simp] theorem State.clearPort_feed (s : State) : s.clearPort.feed = s.feed := rfl
@[simp] theorem State.clearPort_hole (s : State) : s.clearPort.hole = s.hole := rfl
@[simp] theorem State.clearPort_sort (s : State) : s.clearPort.sort = s.sort := rfl
@[simp] theorem State.clearPort_faults (s : State) : s.clearPort.faults = s.faults := rfl
@[simp] theorem State.clearPort_spi (s : State) : s.clearPort.spi = s.spi := rfl
@[simp] theorem State.clearPort_pending (s : State) : s.clearPort.pending = s.pending := rfl

/-! ### A frame entered in the queue (R40) -/

@[simp] theorem State.queued_timeBase (s : State) (n : Notice) : (s.queued n).timeBase = s.timeBase := rfl
@[simp] theorem State.queued_travel (s : State) (n : Notice) : (s.queued n).travel = s.travel := rfl
@[simp] theorem State.queued_eyes (s : State) (n : Notice) : (s.queued n).eyes = s.eyes := rfl
@[simp] theorem State.queued_control (s : State) (n : Notice) : (s.queued n).control = s.control := rfl
@[simp] theorem State.queued_tracker (s : State) (n : Notice) : (s.queued n).tracker = s.tracker := rfl
@[simp] theorem State.queued_feed (s : State) (n : Notice) : (s.queued n).feed = s.feed := rfl
@[simp] theorem State.queued_hole (s : State) (n : Notice) : (s.queued n).hole = s.hole := rfl
@[simp] theorem State.queued_sort (s : State) (n : Notice) : (s.queued n).sort = s.sort := rfl
@[simp] theorem State.queued_faults (s : State) (n : Notice) : (s.queued n).faults = s.faults := rfl
@[simp] theorem State.queued_spi (s : State) (n : Notice) : (s.queued n).spi = s.spi := rfl
@[simp] theorem State.queued_pending (s : State) (n : Notice) : (s.queued n).pending = s.pending := rfl

/-! ### A withdraw (R42) -/

@[simp] theorem State.withdraw_timeBase (s : State) : s.withdraw.1.timeBase = s.timeBase := rfl
@[simp] theorem State.withdraw_travel (s : State) : s.withdraw.1.travel = s.travel := rfl
@[simp] theorem State.withdraw_eyes (s : State) : s.withdraw.1.eyes = s.eyes := rfl
@[simp] theorem State.withdraw_control (s : State) : s.withdraw.1.control = s.control := rfl
@[simp] theorem State.withdraw_tracker (s : State) : s.withdraw.1.tracker = s.tracker := rfl
@[simp] theorem State.withdraw_feed (s : State) : s.withdraw.1.feed = s.feed := rfl
@[simp] theorem State.withdraw_hole (s : State) : s.withdraw.1.hole = s.hole := rfl
@[simp] theorem State.withdraw_sort (s : State) : s.withdraw.1.sort = s.sort := rfl
@[simp] theorem State.withdraw_faults (s : State) : s.withdraw.1.faults = s.faults := rfl
@[simp] theorem State.withdraw_spi (s : State) : s.withdraw.1.spi = s.spi := rfl
@[simp] theorem State.withdraw_pending (s : State) : s.withdraw.1.pending = s.pending := rfl

/-! ### An address removed from the halt set (R62) -/

@[simp] theorem State.unhalt_timeBase (s : State) (a : Nat) : (s.unhalt a).timeBase = s.timeBase := rfl
@[simp] theorem State.unhalt_travel (s : State) (a : Nat) : (s.unhalt a).travel = s.travel := rfl
@[simp] theorem State.unhalt_eyes (s : State) (a : Nat) : (s.unhalt a).eyes = s.eyes := rfl
@[simp] theorem State.unhalt_port (s : State) (a : Nat) : (s.unhalt a).port = s.port := rfl
@[simp] theorem State.unhalt_tracker (s : State) (a : Nat) : (s.unhalt a).tracker = s.tracker := rfl
@[simp] theorem State.unhalt_feed (s : State) (a : Nat) : (s.unhalt a).feed = s.feed := rfl
@[simp] theorem State.unhalt_hole (s : State) (a : Nat) : (s.unhalt a).hole = s.hole := rfl
@[simp] theorem State.unhalt_sort (s : State) (a : Nat) : (s.unhalt a).sort = s.sort := rfl
@[simp] theorem State.unhalt_faults (s : State) (a : Nat) : (s.unhalt a).faults = s.faults := rfl
@[simp] theorem State.unhalt_spi (s : State) (a : Nat) : (s.unhalt a).spi = s.spi := rfl
@[simp] theorem State.unhalt_pending (s : State) (a : Nat) : (s.unhalt a).pending = s.pending := rfl

/-! ### A draw (R18) -/

@[simp] theorem State.draw_timeBase (s : State) : s.draw.2.timeBase = s.timeBase := rfl
@[simp] theorem State.draw_travel (s : State) : s.draw.2.travel = s.travel := rfl
@[simp] theorem State.draw_eyes (s : State) : s.draw.2.eyes = s.eyes := rfl
@[simp] theorem State.draw_port (s : State) : s.draw.2.port = s.port := rfl
@[simp] theorem State.draw_tracker (s : State) : s.draw.2.tracker = s.tracker := rfl
@[simp] theorem State.draw_feed (s : State) : s.draw.2.feed = s.feed := rfl
@[simp] theorem State.draw_hole (s : State) : s.draw.2.hole = s.hole := rfl
@[simp] theorem State.draw_sort (s : State) : s.draw.2.sort = s.sort := rfl
@[simp] theorem State.draw_faults (s : State) : s.draw.2.faults = s.faults := rfl
@[simp] theorem State.draw_spi (s : State) : s.draw.2.spi = s.spi := rfl
@[simp] theorem State.draw_pending (s : State) : s.draw.2.pending = s.pending := rfl

/-! ### A station state set (R52) -/

@[simp] theorem State.withStationState_timeBase (s : State) (x : StationState) : (s.withStationState x).timeBase = s.timeBase := rfl
@[simp] theorem State.withStationState_travel (s : State) (x : StationState) : (s.withStationState x).travel = s.travel := rfl
@[simp] theorem State.withStationState_eyes (s : State) (x : StationState) : (s.withStationState x).eyes = s.eyes := rfl
@[simp] theorem State.withStationState_port (s : State) (x : StationState) : (s.withStationState x).port = s.port := rfl
@[simp] theorem State.withStationState_tracker (s : State) (x : StationState) : (s.withStationState x).tracker = s.tracker := rfl
@[simp] theorem State.withStationState_feed (s : State) (x : StationState) : (s.withStationState x).feed = s.feed := rfl
@[simp] theorem State.withStationState_hole (s : State) (x : StationState) : (s.withStationState x).hole = s.hole := rfl
@[simp] theorem State.withStationState_sort (s : State) (x : StationState) : (s.withStationState x).sort = s.sort := rfl
@[simp] theorem State.withStationState_faults (s : State) (x : StationState) : (s.withStationState x).faults = s.faults := rfl
@[simp] theorem State.withStationState_spi (s : State) (x : StationState) : (s.withStationState x).spi = s.spi := rfl
@[simp] theorem State.withStationState_pending (s : State) (x : StationState) : (s.withStationState x).pending = s.pending := rfl

/-! ### A response (R181) -/

@[simp] theorem State.respond_timeBase (b s : State) (n : Nat) (code : Byte) (l : List Byte) : (State.respond b s n code l).timeBase = s.timeBase := rfl
@[simp] theorem State.respond_travel (b s : State) (n : Nat) (code : Byte) (l : List Byte) : (State.respond b s n code l).travel = s.travel := rfl
@[simp] theorem State.respond_eyes (b s : State) (n : Nat) (code : Byte) (l : List Byte) : (State.respond b s n code l).eyes = s.eyes := rfl
@[simp] theorem State.respond_port (b s : State) (n : Nat) (code : Byte) (l : List Byte) : (State.respond b s n code l).port = s.port := rfl
@[simp] theorem State.respond_control (b s : State) (n : Nat) (code : Byte) (l : List Byte) : (State.respond b s n code l).control = s.control := rfl
@[simp] theorem State.respond_tracker (b s : State) (n : Nat) (code : Byte) (l : List Byte) : (State.respond b s n code l).tracker = s.tracker := rfl
@[simp] theorem State.respond_feed (b s : State) (n : Nat) (code : Byte) (l : List Byte) : (State.respond b s n code l).feed = s.feed := rfl
@[simp] theorem State.respond_hole (b s : State) (n : Nat) (code : Byte) (l : List Byte) : (State.respond b s n code l).hole = s.hole := rfl
@[simp] theorem State.respond_sort (b s : State) (n : Nat) (code : Byte) (l : List Byte) : (State.respond b s n code l).sort = s.sort := rfl
@[simp] theorem State.respond_faults (b s : State) (n : Nat) (code : Byte) (l : List Byte) : (State.respond b s n code l).faults = s.faults := rfl
@[simp] theorem State.respond_pending (b s : State) (n : Nat) (code : Byte) (l : List Byte) : (State.respond b s n code l).pending = s.pending := rfl

/-! ### Tally records taken (R187) -/

@[simp] theorem State.takeTally_timeBase (s : State) (n : Nat) : (s.takeTally n).timeBase = s.timeBase := rfl
@[simp] theorem State.takeTally_travel (s : State) (n : Nat) : (s.takeTally n).travel = s.travel := rfl
@[simp] theorem State.takeTally_eyes (s : State) (n : Nat) : (s.takeTally n).eyes = s.eyes := rfl
@[simp] theorem State.takeTally_port (s : State) (n : Nat) : (s.takeTally n).port = s.port := rfl
@[simp] theorem State.takeTally_control (s : State) (n : Nat) : (s.takeTally n).control = s.control := rfl
@[simp] theorem State.takeTally_tracker (s : State) (n : Nat) : (s.takeTally n).tracker = s.tracker := rfl
@[simp] theorem State.takeTally_feed (s : State) (n : Nat) : (s.takeTally n).feed = s.feed := rfl
@[simp] theorem State.takeTally_hole (s : State) (n : Nat) : (s.takeTally n).hole = s.hole := rfl
@[simp] theorem State.takeTally_faults (s : State) (n : Nat) : (s.takeTally n).faults = s.faults := rfl
@[simp] theorem State.takeTally_spi (s : State) (n : Nat) : (s.takeTally n).spi = s.spi := rfl
@[simp] theorem State.takeTally_pending (s : State) (n : Nat) : (s.takeTally n).pending = s.pending := rfl

/-! ### The time base moved to an expiry (R13) -/

@[simp] theorem State.atExpiryOf_travel (s : State) (t : Timer) : (s.atExpiryOf t).travel = s.travel := rfl
@[simp] theorem State.atExpiryOf_eyes (s : State) (t : Timer) : (s.atExpiryOf t).eyes = s.eyes := rfl
@[simp] theorem State.atExpiryOf_port (s : State) (t : Timer) : (s.atExpiryOf t).port = s.port := rfl
@[simp] theorem State.atExpiryOf_control (s : State) (t : Timer) : (s.atExpiryOf t).control = s.control := rfl
@[simp] theorem State.atExpiryOf_tracker (s : State) (t : Timer) : (s.atExpiryOf t).tracker = s.tracker := rfl
@[simp] theorem State.atExpiryOf_feed (s : State) (t : Timer) : (s.atExpiryOf t).feed = s.feed := rfl
@[simp] theorem State.atExpiryOf_hole (s : State) (t : Timer) : (s.atExpiryOf t).hole = s.hole := rfl
@[simp] theorem State.atExpiryOf_sort (s : State) (t : Timer) : (s.atExpiryOf t).sort = s.sort := rfl
@[simp] theorem State.atExpiryOf_faults (s : State) (t : Timer) : (s.atExpiryOf t).faults = s.faults := rfl
@[simp] theorem State.atExpiryOf_spi (s : State) (t : Timer) : (s.atExpiryOf t).spi = s.spi := rfl
@[simp] theorem State.atExpiryOf_pending (s : State) (t : Timer) : (s.atExpiryOf t).pending = s.pending := rfl

/-! ### The encoder-loss timer restarted (R8) -/

@[simp] theorem State.restartLoss_timeBase (s : State) : s.restartLoss.timeBase = s.timeBase := rfl
@[simp] theorem State.restartLoss_eyes (s : State) : s.restartLoss.eyes = s.eyes := rfl
@[simp] theorem State.restartLoss_port (s : State) : s.restartLoss.port = s.port := rfl
@[simp] theorem State.restartLoss_control (s : State) : s.restartLoss.control = s.control := rfl
@[simp] theorem State.restartLoss_tracker (s : State) : s.restartLoss.tracker = s.tracker := rfl
@[simp] theorem State.restartLoss_feed (s : State) : s.restartLoss.feed = s.feed := rfl
@[simp] theorem State.restartLoss_hole (s : State) : s.restartLoss.hole = s.hole := rfl
@[simp] theorem State.restartLoss_sort (s : State) : s.restartLoss.sort = s.sort := rfl
@[simp] theorem State.restartLoss_faults (s : State) : s.restartLoss.faults = s.faults := rfl
@[simp] theorem State.restartLoss_spi (s : State) : s.restartLoss.spi = s.spi := rfl
@[simp] theorem State.restartLoss_pending (s : State) : s.restartLoss.pending = s.pending := rfl

/-! ### The eyes set anew (R96) -/

@[simp] theorem State.renewEyes_timeBase (s : State) : s.renewEyes.timeBase = s.timeBase := rfl
@[simp] theorem State.renewEyes_travel (s : State) : s.renewEyes.travel = s.travel := rfl
@[simp] theorem State.renewEyes_port (s : State) : s.renewEyes.port = s.port := rfl
@[simp] theorem State.renewEyes_control (s : State) : s.renewEyes.control = s.control := rfl
@[simp] theorem State.renewEyes_tracker (s : State) : s.renewEyes.tracker = s.tracker := rfl
@[simp] theorem State.renewEyes_feed (s : State) : s.renewEyes.feed = s.feed := rfl
@[simp] theorem State.renewEyes_hole (s : State) : s.renewEyes.hole = s.hole := rfl
@[simp] theorem State.renewEyes_sort (s : State) : s.renewEyes.sort = s.sort := rfl
@[simp] theorem State.renewEyes_faults (s : State) : s.renewEyes.faults = s.faults := rfl
@[simp] theorem State.renewEyes_spi (s : State) : s.renewEyes.spi = s.spi := rfl
@[simp] theorem State.renewEyes_pending (s : State) : s.renewEyes.pending = s.pending := rfl

/-! ### A matched sighting (R101) -/

@[simp] theorem State.matchedSighting_timeBase (s : State) (k : Lane) : (s.matchedSighting k).timeBase = s.timeBase := rfl
@[simp] theorem State.matchedSighting_travel (s : State) (k : Lane) : (s.matchedSighting k).travel = s.travel := rfl
@[simp] theorem State.matchedSighting_port (s : State) (k : Lane) : (s.matchedSighting k).port = s.port := rfl
@[simp] theorem State.matchedSighting_control (s : State) (k : Lane) : (s.matchedSighting k).control = s.control := rfl
@[simp] theorem State.matchedSighting_tracker (s : State) (k : Lane) : (s.matchedSighting k).tracker = s.tracker := rfl
@[simp] theorem State.matchedSighting_feed (s : State) (k : Lane) : (s.matchedSighting k).feed = s.feed := rfl
@[simp] theorem State.matchedSighting_hole (s : State) (k : Lane) : (s.matchedSighting k).hole = s.hole := rfl
@[simp] theorem State.matchedSighting_sort (s : State) (k : Lane) : (s.matchedSighting k).sort = s.sort := rfl
@[simp] theorem State.matchedSighting_faults (s : State) (k : Lane) : (s.matchedSighting k).faults = s.faults := rfl
@[simp] theorem State.matchedSighting_spi (s : State) (k : Lane) : (s.matchedSighting k).spi = s.spi := rfl
@[simp] theorem State.matchedSighting_pending (s : State) (k : Lane) : (s.matchedSighting k).pending = s.pending := rfl

/-! ### The own hole removed (R147, R149, R150) -/

@[simp] theorem State.dropOwnHole_timeBase (s : State) : s.dropOwnHole.timeBase = s.timeBase := rfl
@[simp] theorem State.dropOwnHole_travel (s : State) : s.dropOwnHole.travel = s.travel := rfl
@[simp] theorem State.dropOwnHole_eyes (s : State) : s.dropOwnHole.eyes = s.eyes := rfl
@[simp] theorem State.dropOwnHole_port (s : State) : s.dropOwnHole.port = s.port := rfl
@[simp] theorem State.dropOwnHole_control (s : State) : s.dropOwnHole.control = s.control := rfl
@[simp] theorem State.dropOwnHole_tracker (s : State) : s.dropOwnHole.tracker = s.tracker := rfl
@[simp] theorem State.dropOwnHole_sort (s : State) : s.dropOwnHole.sort = s.sort := rfl
@[simp] theorem State.dropOwnHole_faults (s : State) : s.dropOwnHole.faults = s.faults := rfl
@[simp] theorem State.dropOwnHole_spi (s : State) : s.dropOwnHole.spi = s.spi := rfl
@[simp] theorem State.dropOwnHole_pending (s : State) : s.dropOwnHole.pending = s.pending := rfl

/-! ### Patience restarted (R138) -/

@[simp] theorem State.restartPatience_timeBase (s : State) : s.restartPatience.timeBase = s.timeBase := rfl
@[simp] theorem State.restartPatience_travel (s : State) : s.restartPatience.travel = s.travel := rfl
@[simp] theorem State.restartPatience_eyes (s : State) : s.restartPatience.eyes = s.eyes := rfl
@[simp] theorem State.restartPatience_port (s : State) : s.restartPatience.port = s.port := rfl
@[simp] theorem State.restartPatience_control (s : State) : s.restartPatience.control = s.control := rfl
@[simp] theorem State.restartPatience_tracker (s : State) : s.restartPatience.tracker = s.tracker := rfl
@[simp] theorem State.restartPatience_hole (s : State) : s.restartPatience.hole = s.hole := rfl
@[simp] theorem State.restartPatience_sort (s : State) : s.restartPatience.sort = s.sort := rfl
@[simp] theorem State.restartPatience_faults (s : State) : s.restartPatience.faults = s.faults := rfl
@[simp] theorem State.restartPatience_spi (s : State) : s.restartPatience.spi = s.spi := rfl
@[simp] theorem State.restartPatience_pending (s : State) : s.restartPatience.pending = s.pending := rfl

/-! ### Growing ended on a lane (R131) -/

@[simp] theorem State.endGrowing_timeBase (s : State) (k : Lane) : (s.endGrowing k).timeBase = s.timeBase := rfl
@[simp] theorem State.endGrowing_travel (s : State) (k : Lane) : (s.endGrowing k).travel = s.travel := rfl
@[simp] theorem State.endGrowing_eyes (s : State) (k : Lane) : (s.endGrowing k).eyes = s.eyes := rfl
@[simp] theorem State.endGrowing_port (s : State) (k : Lane) : (s.endGrowing k).port = s.port := rfl
@[simp] theorem State.endGrowing_control (s : State) (k : Lane) : (s.endGrowing k).control = s.control := rfl
@[simp] theorem State.endGrowing_tracker (s : State) (k : Lane) : (s.endGrowing k).tracker = s.tracker := rfl
@[simp] theorem State.endGrowing_hole (s : State) (k : Lane) : (s.endGrowing k).hole = s.hole := rfl
@[simp] theorem State.endGrowing_sort (s : State) (k : Lane) : (s.endGrowing k).sort = s.sort := rfl
@[simp] theorem State.endGrowing_faults (s : State) (k : Lane) : (s.endGrowing k).faults = s.faults := rfl
@[simp] theorem State.endGrowing_spi (s : State) (k : Lane) : (s.endGrowing k).spi = s.spi := rfl
@[simp] theorem State.endGrowing_pending (s : State) (k : Lane) : (s.endGrowing k).pending = s.pending := rfl

/-! ### A record created (R24) -/

@[simp] theorem State.createRecord_timeBase (s : State) (p : Nat) : (s.createRecord p).timeBase = s.timeBase := rfl
@[simp] theorem State.createRecord_travel (s : State) (p : Nat) : (s.createRecord p).travel = s.travel := rfl
@[simp] theorem State.createRecord_eyes (s : State) (p : Nat) : (s.createRecord p).eyes = s.eyes := rfl
@[simp] theorem State.createRecord_port (s : State) (p : Nat) : (s.createRecord p).port = s.port := rfl
@[simp] theorem State.createRecord_tracker (s : State) (p : Nat) : (s.createRecord p).tracker = s.tracker := rfl
@[simp] theorem State.createRecord_hole (s : State) (p : Nat) : (s.createRecord p).hole = s.hole := rfl
@[simp] theorem State.createRecord_sort (s : State) (p : Nat) : (s.createRecord p).sort = s.sort := rfl
@[simp] theorem State.createRecord_faults (s : State) (p : Nat) : (s.createRecord p).faults = s.faults := rfl
@[simp] theorem State.createRecord_spi (s : State) (p : Nat) : (s.createRecord p).spi = s.spi := rfl
@[simp] theorem State.createRecord_pending (s : State) (p : Nat) : (s.createRecord p).pending = s.pending := rfl

/-! ### A refresh (R78) -/

@[simp] theorem State.refresh_timeBase (s : State) (e : Entry) (a : Announcement) : (s.refresh e a).timeBase = s.timeBase := rfl
@[simp] theorem State.refresh_travel (s : State) (e : Entry) (a : Announcement) : (s.refresh e a).travel = s.travel := rfl
@[simp] theorem State.refresh_eyes (s : State) (e : Entry) (a : Announcement) : (s.refresh e a).eyes = s.eyes := rfl
@[simp] theorem State.refresh_port (s : State) (e : Entry) (a : Announcement) : (s.refresh e a).port = s.port := rfl
@[simp] theorem State.refresh_control (s : State) (e : Entry) (a : Announcement) : (s.refresh e a).control = s.control := rfl
@[simp] theorem State.refresh_feed (s : State) (e : Entry) (a : Announcement) : (s.refresh e a).feed = s.feed := rfl
@[simp] theorem State.refresh_hole (s : State) (e : Entry) (a : Announcement) : (s.refresh e a).hole = s.hole := rfl
@[simp] theorem State.refresh_sort (s : State) (e : Entry) (a : Announcement) : (s.refresh e a).sort = s.sort := rfl
@[simp] theorem State.refresh_faults (s : State) (e : Entry) (a : Announcement) : (s.refresh e a).faults = s.faults := rfl
@[simp] theorem State.refresh_spi (s : State) (e : Entry) (a : Announcement) : (s.refresh e a).spi = s.spi := rfl
@[simp] theorem State.refresh_pending (s : State) (e : Entry) (a : Announcement) : (s.refresh e a).pending = s.pending := rfl

/-! ### An edge that joins a passage (R104) -/

@[simp] theorem State.joinPassage_timeBase (s : State) (e : Entry) (g : Passage) (k : Lane) : (s.joinPassage e g k).timeBase = s.timeBase := rfl
@[simp] theorem State.joinPassage_travel (s : State) (e : Entry) (g : Passage) (k : Lane) : (s.joinPassage e g k).travel = s.travel := rfl
@[simp] theorem State.joinPassage_port (s : State) (e : Entry) (g : Passage) (k : Lane) : (s.joinPassage e g k).port = s.port := rfl
@[simp] theorem State.joinPassage_control (s : State) (e : Entry) (g : Passage) (k : Lane) : (s.joinPassage e g k).control = s.control := rfl
@[simp] theorem State.joinPassage_feed (s : State) (e : Entry) (g : Passage) (k : Lane) : (s.joinPassage e g k).feed = s.feed := rfl
@[simp] theorem State.joinPassage_hole (s : State) (e : Entry) (g : Passage) (k : Lane) : (s.joinPassage e g k).hole = s.hole := rfl
@[simp] theorem State.joinPassage_sort (s : State) (e : Entry) (g : Passage) (k : Lane) : (s.joinPassage e g k).sort = s.sort := rfl
@[simp] theorem State.joinPassage_faults (s : State) (e : Entry) (g : Passage) (k : Lane) : (s.joinPassage e g k).faults = s.faults := rfl
@[simp] theorem State.joinPassage_spi (s : State) (e : Entry) (g : Passage) (k : Lane) : (s.joinPassage e g k).spi = s.spi := rfl
@[simp] theorem State.joinPassage_pending (s : State) (e : Entry) (g : Passage) (k : Lane) : (s.joinPassage e g k).pending = s.pending := rfl

/-! ### An edge that matches an entry (R105) -/

@[simp] theorem State.matchEntry_timeBase (s : State) (e : Entry) (k : Lane) : (s.matchEntry e k).timeBase = s.timeBase := rfl
@[simp] theorem State.matchEntry_travel (s : State) (e : Entry) (k : Lane) : (s.matchEntry e k).travel = s.travel := rfl
@[simp] theorem State.matchEntry_port (s : State) (e : Entry) (k : Lane) : (s.matchEntry e k).port = s.port := rfl
@[simp] theorem State.matchEntry_control (s : State) (e : Entry) (k : Lane) : (s.matchEntry e k).control = s.control := rfl
@[simp] theorem State.matchEntry_feed (s : State) (e : Entry) (k : Lane) : (s.matchEntry e k).feed = s.feed := rfl
@[simp] theorem State.matchEntry_hole (s : State) (e : Entry) (k : Lane) : (s.matchEntry e k).hole = s.hole := rfl
@[simp] theorem State.matchEntry_sort (s : State) (e : Entry) (k : Lane) : (s.matchEntry e k).sort = s.sort := rfl
@[simp] theorem State.matchEntry_faults (s : State) (e : Entry) (k : Lane) : (s.matchEntry e k).faults = s.faults := rfl
@[simp] theorem State.matchEntry_spi (s : State) (e : Entry) (k : Lane) : (s.matchEntry e k).spi = s.spi := rfl
@[simp] theorem State.matchEntry_pending (s : State) (e : Entry) (k : Lane) : (s.matchEntry e k).pending = s.pending := rfl

/-! ### The distances moved on an advance (R6) -/

@[simp] theorem State.moveAll_timeBase (s : State) (d : Int) : (s.moveAll d).timeBase = s.timeBase := rfl
@[simp] theorem State.moveAll_travel (s : State) (d : Int) : (s.moveAll d).travel = s.travel := rfl
@[simp] theorem State.moveAll_control (s : State) (d : Int) : (s.moveAll d).control = s.control := rfl
@[simp] theorem State.moveAll_feed (s : State) (d : Int) : (s.moveAll d).feed = s.feed := rfl
@[simp] theorem State.moveAll_hole (s : State) (d : Int) : (s.moveAll d).hole = s.hole := rfl
@[simp] theorem State.moveAll_faults (s : State) (d : Int) : (s.moveAll d).faults = s.faults := rfl
@[simp] theorem State.moveAll_spi (s : State) (d : Int) : (s.moveAll d).spi = s.spi := rfl
@[simp] theorem State.moveAll_pending (s : State) (d : Int) : (s.moveAll d).pending = s.pending := rfl

/-! ### The image written (R183) -/

@[simp] theorem State.writeImage_timeBase (s : State) (o : Nat) (l : List Byte) : (s.writeImage o l).timeBase = s.timeBase := rfl
@[simp] theorem State.writeImage_travel (s : State) (o : Nat) (l : List Byte) : (s.writeImage o l).travel = s.travel := rfl
@[simp] theorem State.writeImage_eyes (s : State) (o : Nat) (l : List Byte) : (s.writeImage o l).eyes = s.eyes := rfl
@[simp] theorem State.writeImage_port (s : State) (o : Nat) (l : List Byte) : (s.writeImage o l).port = s.port := rfl
@[simp] theorem State.writeImage_tracker (s : State) (o : Nat) (l : List Byte) : (s.writeImage o l).tracker = s.tracker := rfl
@[simp] theorem State.writeImage_feed (s : State) (o : Nat) (l : List Byte) : (s.writeImage o l).feed = s.feed := rfl
@[simp] theorem State.writeImage_hole (s : State) (o : Nat) (l : List Byte) : (s.writeImage o l).hole = s.hole := rfl
@[simp] theorem State.writeImage_sort (s : State) (o : Nat) (l : List Byte) : (s.writeImage o l).sort = s.sort := rfl
@[simp] theorem State.writeImage_faults (s : State) (o : Nat) (l : List Byte) : (s.writeImage o l).faults = s.faults := rfl
@[simp] theorem State.writeImage_pending (s : State) (o : Nat) (l : List Byte) : (s.writeImage o l).pending = s.pending := rfl

/-! ### The tracking state cleared (R55, R68) -/

@[simp] theorem State.clearTracking_timeBase (s : State) : s.clearTracking.timeBase = s.timeBase := rfl
@[simp] theorem State.clearTracking_port (s : State) : s.clearTracking.port = s.port := rfl
@[simp] theorem State.clearTracking_control (s : State) : s.clearTracking.control = s.control := rfl
@[simp] theorem State.clearTracking_faults (s : State) : s.clearTracking.faults = s.faults := rfl
@[simp] theorem State.clearTracking_spi (s : State) : s.clearTracking.spi = s.spi := rfl
@[simp] theorem State.clearTracking_pending (s : State) : s.clearTracking.pending = s.pending := rfl

/-! ### The reads that several rules make -/

@[simp] theorem State.image_eq (s : State) : s.image = s.spi.image := rfl
@[simp] theorem State.role_eq (s : State) : s.role = Image.role s.spi.image := rfl

/-- What a take answers, in the words of Safety.lean: the result code and the bytes that follow it (R181). -/
theorem State.respond_eq_answered (b s : State) (n : Nat) (code : Byte) (l : List Byte) :
    State.respond b s n code l = answered b s n (code :: l) := rfl

/-- A refusal, in the words of Safety.lean (R182). -/
theorem State.refuse_eq_answered (s : State) (n : Nat) (code : Byte) : s.refuse n code = answered s s n [code] := rfl

/-- The records taken leave the tally queue from its oldest end, as far as the station shows them (R187). -/
@[simp] theorem State.takeTally_tally (s : State) (n : Nat) :
    (s.takeTally n).sort.tally = s.sort.tally.drop (min n s.tallyQueue.length) := rfl

theorem State.onLine_of_state {s t : State} (h : t.control.state = s.control.state) : t.onLine = s.onLine := by
  simp [State.onLine, h]

theorem State.running_of_state {s t : State} (h : t.control.state = s.control.state) : t.running = s.running := by
  simp [State.running, h]

/-- Parked depends on the station state, the travel unit, the hold input and the fault unit alone (R61). -/
theorem State.parked_congr {s t : State} (hs : t.control.state = s.control.state) (ht : t.travel = s.travel)
    (hh : t.control.holdInput = s.control.holdInput) (hf : t.faults = s.faults) : t.parked = s.parked := by
  simp [State.parked, State.parkCause, State.running, hs, ht, hh, hf]

end Sys2Proof.Machine
end

