-- ==== Sys2Proof/Laws/Occurrence.lean ====
section
/-! SUPPORT. What taking an occurrence, adding a frame and announcing can do, said once: everything outside the named
parts of the state is as it was. The lemmas about the blocks that report occurrences cite these. -/

namespace Sys2Proof.Machine

open Sys2Proof

/-- What an occurrence, an added frame or an announcement leaves as it was (R40, R65, R67, R144, R160, R173). It may change
the queue's frames, the halt set with its records and the announcement state, the map and patience and the hole unit (a
HOLE put out), the actions and the route (a park begin), and the fault unit but for its policy. -/
structure Quiet (s t : State) : Prop where
  timeBase : t.timeBase = s.timeBase
  travel : t.travel = s.travel
  eyes : t.eyes = s.eyes
  tracker : t.tracker = s.tracker
  spi : t.spi = s.spi
  pending : t.pending = s.pending
  state : t.control.state = s.control.state
  departure : t.control.departure = s.control.departure
  lockoutCause : t.control.lockoutCause = s.control.lockoutCause
  restartFlag : t.control.restartFlag = s.control.restartFlag
  holdInput : t.control.holdInput = s.control.holdInput
  settleTimer : t.control.settleTimer = s.control.settleTimer
  seq : t.control.seq = s.control.seq
  active : t.port.active = s.port.active
  medium : t.port.medium = s.port.medium
  failures : t.port.failures = s.port.failures
  offLine : t.port.offLine = s.port.offLine
  offLineTimer : t.port.offLineTimer = s.port.offLineTimer
  feedQueue : t.feed.queue = s.feed.queue
  feedReady : t.feed.ready = s.feed.ready
  handshake : t.feed.handshake = s.feed.handshake
  spreader : t.feed.spreader = s.feed.spreader
  releaseTimer : t.feed.releaseTimer = s.feed.releaseTimer
  stuckTimer : t.feed.stuckTimer = s.feed.stuckTimer
  lastDropped : t.feed.lastDropped = s.feed.lastDropped
  batchLatch : t.feed.batchLatch = s.feed.batchLatch
  stackers : t.sort.stackers = s.sort.stackers
  gapCounter : t.sort.gapCounter = s.sort.gapCounter
  entryGap : t.sort.entryGap = s.sort.entryGap
  bladeTimer : t.sort.bladeTimer = s.sort.bladeTimer
  runout : t.sort.runout = s.sort.runout
  tally : t.sort.tally = s.sort.tally
  policy : t.faults.policy = s.faults.policy

theorem Quiet.refl (s : State) : Quiet s s := by constructor <;> rfl

theorem Quiet.trans {s t u : State} (h : Quiet s t) (h' : Quiet t u) : Quiet s u := by
  cases h; cases h'; constructor <;> simp_all

theorem Quiet.image {s t : State} (h : Quiet s t) : t.image = s.image := by simp [h.spi]

theorem Quiet.role {s t : State} (h : Quiet s t) : t.role = s.role := by simp [h.spi]

theorem Quiet.onLine {s t : State} (h : Quiet s t) : t.onLine = s.onLine := State.onLine_of_state h.state

theorem Quiet.running {s t : State} (h : Quiet s t) : t.running = s.running := State.running_of_state h.state

/-! ### The fault unit's part (R172, R173, R175) -/

@[simp] theorem FaultUnit.take_policy (u : FaultUnit) (o : Occurrence) : (u.take o).policy = u.policy := by
  unfold FaultUnit.take; split <;> rfl

theorem followParkBegin_quiet (b s : State) : Quiet s (followParkBegin b s) := by
  unfold followParkBegin
  split
  · constructor <;> rfl
  · exact Quiet.refl s

theorem followParkBegin_faults (b s : State) : (followParkBegin b s).faults = s.faults := by
  unfold followParkBegin; split <;> rfl

/-! ### The operations -/

theorem State.note_quiet (s : State) (o : Occurrence) : Quiet s (s.note o) := by
  unfold State.note
  refine Quiet.trans ?_ (followParkBegin_quiet _ _)
  constructor <;> first | rfl | simp

@[simp] theorem State.note_faults (s : State) (o : Occurrence) : (s.note o).faults = s.faults.take o := by
  unfold State.note; rw [followParkBegin_faults]

theorem State.holeDiscarded_quiet (s : State) : Quiet s s.holeDiscarded := by
  unfold State.holeDiscarded; split <;> constructor <;> rfl

theorem State.discardReport_quiet (s : State) (x : Slot) : Quiet s (s.discardReport x) := by
  unfold State.discardReport
  split <;> first | exact State.holeDiscarded_quiet s | exact Quiet.refl s

theorem State.put_quiet (s : State) (n : Notice) (age : Nat) : Quiet s (s.put n age).1 := by
  unfold State.put
  split
  · simp only []
    split
    · constructor <;> rfl
    · refine Quiet.trans ?_ (State.discardReport_quiet _ _)
      constructor <;> rfl
  · exact Quiet.refl s

theorem State.addQuiet_quiet (s : State) (n : Notice) (age : Nat) : Quiet s (s.addQuiet n age) := by
  have h := State.put_quiet s n age
  unfold State.addQuiet
  split
  next s' e => rw [e] at h; exact h
  next s' y e => rw [e] at h; exact h.trans (State.note_quiet _ _)

theorem StationControl.announceStep_keeps (c : StationControl) (k : Announced) :
    (c.announceStep k).1 = { c with queued := (c.announceStep k).1.queued, owed := (c.announceStep k).1.owed } := by
  unfold StationControl.announceStep
  split
  · rfl
  · split <;> rfl

theorem State.announceQuiet_quiet (s : State) (k : Announced) : Quiet s (s.announceQuiet k) := by
  have h : Quiet s { s with control := (s.control.announceStep k).1 } := by
    rw [StationControl.announceStep_keeps]; constructor <;> rfl
  unfold State.announceQuiet
  simp only []
  split
  · exact h.trans (State.addQuiet_quiet _ _ _)
  · exact h

theorem State.raiseOwnHalt_quiet (s : State) (r : Nat) (t : Option Tag) : Quiet s (s.raiseOwnHalt r t) := by
  unfold State.raiseOwnHalt
  refine Quiet.trans ?_ (State.announceQuiet_quiet _ _)
  constructor <;> rfl

theorem State.takeHaltRequest_quiet (s : State) (k : FaultKind) : Quiet s (s.takeHaltRequest k) := by
  unfold State.takeHaltRequest
  split
  · exact State.raiseOwnHalt_quiet _ _ _
  · exact Quiet.refl s

/-- What an occurrence, taken whole, leaves as it was (R173). -/
theorem State.occur_quiet (s : State) (o : Occurrence) : Quiet s (s.occur o) := by
  unfold State.occur
  split
  · exact (State.note_quiet s o).trans (State.takeHaltRequest_quiet _ _)
  · exact State.note_quiet s o

theorem State.occurAll_quiet (s : State) (os : List Occurrence) : Quiet s (s.occurAll os) := by
  induction os generalizing s with
  | nil => exact Quiet.refl s
  | cons o os ih => exact (State.occur_quiet s o).trans (ih (s.occur o))

/-- What an added frame leaves as it was (R40). -/
theorem State.add_quiet (s : State) (n : Notice) (age : Nat) : Quiet s (s.add n age) := by
  have h := State.put_quiet s n age
  unfold State.add
  split
  next s' e => rw [e] at h; exact h
  next s' y e => rw [e] at h; exact h.trans (State.occur_quiet _ _)

theorem State.announce_quiet (s : State) (k : Announced) : Quiet s (s.announce k) := by
  have h : Quiet s { s with control := (s.control.announceStep k).1 } := by
    rw [StationControl.announceStep_keeps]; constructor <;> rfl
  unfold State.announce
  simp only []
  split
  · exact h.trans (State.add_quiet _ _ _)
  · exact h

theorem State.resendHalt_quiet (s : State) : Quiet s s.resendHalt := by
  unfold State.resendHalt
  split
  · exact State.announce_quiet s .halt
  · exact Quiet.refl s

theorem State.unhalt_quiet (s : State) (a : Nat) : Quiet s (s.unhalt a) := by
  constructor <;> rfl

theorem State.takeHalt_quiet (s : State) (a i r : Nat) (t : Option Tag) : Quiet s (s.takeHalt a i r t) := by
  unfold State.takeHalt
  split
  · constructor <;> rfl
  · exact State.occur_quiet _ _

theorem State.peerIf_quiet (s : State) (b : Bool) (c i : Nat) : Quiet s (s.peerIf b c i) := by
  unfold State.peerIf
  split
  · exact State.occur_quiet _ _
  · exact Quiet.refl s

theorem State.takePresent_quiet (s : State) (a i r n sum : Nat) (x d : Bool) :
    Quiet s (s.takePresent a i r n sum x d) := by
  have h (u : State) : Quiet u (if d then u else u.unhalt a).resendHalt := by
    refine Quiet.trans ?_ (State.resendHalt_quiet _)
    split
    · exact Quiet.refl u
    · exact State.unhalt_quiet u a
  exact (((State.peerIf_quiet s _ 1 i).trans (State.peerIf_quiet _ _ 2 i)).trans
    ((State.peerIf_quiet _ _ 3 i).trans (State.peerIf_quiet _ _ 7 i))).trans (h _)

theorem State.defend_quiet (s : State) (i : Nat) (n : Notice) : Quiet s (s.defend i n) := by
  unfold State.defend
  split
  · simp only []
    exact ((State.occur_quiet _ _).trans (State.resendHalt_quiet _)).trans (State.add_quiet _ _ _)
  all_goals exact State.occur_quiet _ _

theorem State.endOwnHalt_quiet (s : State) : Quiet s s.endOwnHalt := by
  unfold State.endOwnHalt
  refine Quiet.trans ?_ (State.announce_quiet _ _)
  constructor <;> rfl

theorem State.haltAtEntry_quiet (s : State) : Quiet s s.haltAtEntry := by
  unfold State.haltAtEntry
  split
  · exact Quiet.refl s
  · exact State.raiseOwnHalt_quiet _ _ _

theorem State.leaveHalt_quiet (s : State) : Quiet s s.leaveHalt := by
  unfold State.leaveHalt
  split
  · refine Quiet.trans ?_ (State.announceQuiet_quiet _ _)
    constructor <;> rfl
  · exact Quiet.refl s

/-! ### What the fault unit holds afterwards (R173) -/

@[simp] theorem State.holeDiscarded_faults (s : State) : s.holeDiscarded.faults = s.faults := by
  unfold State.holeDiscarded; split <;> rfl

@[simp] theorem State.discardReport_faults (s : State) (x : Slot) : (s.discardReport x).faults = s.faults := by
  unfold State.discardReport; split <;> first | exact State.holeDiscarded_faults s | rfl

@[simp] theorem State.put_faults (s : State) (n : Notice) (age : Nat) : (s.put n age).1.faults = s.faults := by
  unfold State.put
  split
  · simp only []
    split
    · rfl
    · exact State.discardReport_faults _ _
  · rfl

/-- An added frame brings at most one occurrence to a fault unit that does not ask for a halt (R40). -/
theorem State.addQuiet_faults (s : State) (n : Notice) (age : Nat) :
    (s.addQuiet n age).faults = s.faults ∨ ∃ o, (s.addQuiet n age).faults = s.faults.take o := by
  have h := State.put_faults s n age
  unfold State.addQuiet
  split
  next s' e => rw [e] at h; exact .inl h
  next s' y e => rw [e] at h; exact .inr ⟨s'.putOutOccurrence y, by rw [State.note_faults, show s'.faults = s.faults from h]⟩

theorem State.announceQuiet_faults (s : State) (k : Announced) :
    (s.announceQuiet k).faults = s.faults ∨ ∃ o, (s.announceQuiet k).faults = s.faults.take o := by
  unfold State.announceQuiet
  simp only []
  split
  · exact State.addQuiet_faults _ _ _
  · exact .inl rfl

theorem State.raiseOwnHalt_faults (s : State) (r : Nat) (t : Option Tag) :
    (s.raiseOwnHalt r t).faults = s.faults ∨ ∃ o, (s.raiseOwnHalt r t).faults = s.faults.take o :=
  State.announceQuiet_faults _ _

/-- The fault unit after an occurrence: the occurrence taken, and after it at most the LINE BUS that the HALT's own
overflow brings (R40, R65, R173). -/
theorem State.occur_faults (s : State) (o : Occurrence) :
    (s.occur o).faults = s.faults.take o ∨ ∃ o', (s.occur o).faults = (s.faults.take o).take o' := by
  unfold State.occur
  split
  · unfold State.takeHaltRequest
    split
    · simpa using State.raiseOwnHalt_faults (s.note o) o.kind.number ((s.note o).faults.first.bind (·.tag))
    · exact .inl (State.note_faults s o)
  · exact .inl (State.note_faults s o)

end Sys2Proof.Machine
end

