-- ==== Sys2Proof/Laws/Blocks.lean ====
section
/-! SUPPORT. What the role blocks' work leaves as it was, whatever they meet: a decision of the sort unit, a passage's
end, a stray, a window's close, a drop, a hole request, an edge and a whole travel advance. -/

namespace Sys2Proof.Machine

open Sys2Proof

/-- What no work of the role blocks or of the eye unit changes: the time base, the travel unit, the image, the waiting
commands, the station state with the flags that go with it, the port's own standing, and the policy in force. -/
structure Within (s t : State) : Prop where
  timeBase : t.timeBase = s.timeBase
  travel : t.travel = s.travel
  spi : t.spi = s.spi
  pending : t.pending = s.pending
  state : t.control.state = s.control.state
  departure : t.control.departure = s.control.departure
  lockoutCause : t.control.lockoutCause = s.control.lockoutCause
  restartFlag : t.control.restartFlag = s.control.restartFlag
  holdInput : t.control.holdInput = s.control.holdInput
  settleTimer : t.control.settleTimer = s.control.settleTimer
  active : t.port.active = s.port.active
  medium : t.port.medium = s.port.medium
  failures : t.port.failures = s.port.failures
  offLine : t.port.offLine = s.port.offLine
  offLineTimer : t.port.offLineTimer = s.port.offLineTimer
  policy : t.faults.policy = s.faults.policy

theorem Within.refl (s : State) : Within s s := by constructor <;> rfl

theorem Within.trans {s t u : State} (h : Within s t) (h' : Within t u) : Within s u := by
  cases h; cases h'; constructor <;> simp_all

theorem Quiet.within {s t : State} (h : Quiet s t) : Within s t := by
  cases h; constructor <;> assumption

theorem Within.image {s t : State} (h : Within s t) : t.image = s.image := by simp [h.spi]

theorem Within.role {s t : State} (h : Within s t) : t.role = s.role := by simp [h.spi]

theorem Within.onLine {s t : State} (h : Within s t) : t.onLine = s.onLine := State.onLine_of_state h.state

theorem Within.running {s t : State} (h : Within s t) : t.running = s.running := State.running_of_state h.state

/-- Work done in turn on the members of a list keeps what each piece of it keeps. -/
theorem within_foldl {α : Type} (f : State → α → State) (hf : ∀ s x, Within s (f s x)) (l : List α) (s : State) :
    Within s (l.foldl f s) := by
  induction l generalizing s with
  | nil => exact Within.refl s
  | cons x l ih => exact (hf s x).trans (ih (f s x))

/-! ### Sort unit (chapter 9) -/

theorem State.withSort_within (s : State) (r : SortUnit × List Occurrence) : Within s (s.withSort r) := by
  unfold State.withSort
  refine Within.trans ?_ (State.occurAll_quiet _ _).within
  constructor <;> rfl

theorem State.sortPiece_within (s : State) (p : SortPiece) : Within s (s.sortPiece p) := by
  unfold State.sortPiece
  split
  · exact State.withSort_within _ _
  · exact Within.refl s

theorem State.lostBatchClose_within (s : State) (p : Piece) : Within s (s.lostBatchClose p) := by
  unfold State.lostBatchClose
  split
  · exact State.withSort_within _ _
  · exact Within.refl s

/-! ### Tracker (chapters 5 and 6) -/

theorem State.handOn_within (s : State) (p : Piece) (d : Bool) (n : Nat) : Within s (s.handOn p d n) := by
  unfold State.handOn
  split
  · exact (State.add_quiet _ _ _).within
  · exact State.sortPiece_within _ _
  · exact Within.refl s
  · exact Within.refl s

theorem State.passageEnd_within (s : State) (p : Piece) (g : Passage) (n : Nat) : Within s (s.passageEnd p g n) := by
  have hif (u : State) (b : Bool) (o : Occurrence) : Within u (if b then u.occur o else u) := by
    split
    · exact (State.occur_quiet u o).within
    · exact Within.refl u
  exact ((hif s _ _).trans (hif _ _ _)).trans (State.handOn_within _ _ _ _)

theorem State.strayEnd_within (s : State) (p : Piece) (g : Passage) (n : Nat) : Within s (s.strayEnd p g n) :=
  State.handOn_within _ _ _ _

theorem State.draw_within (s : State) : Within s s.draw.2 := by constructor <;> rfl

theorem State.adopt_within (s : State) (k : Lane) (o : Orphan) : Within s (s.adopt k o) := by
  unfold State.adopt
  simp only []
  have h (u : Occurrence) : Within s (s.draw.2.occur u) := (State.draw_within s).trans (State.occur_quiet _ u).within
  split
  · refine Within.trans ?_ (State.strayEnd_within _ _ _ _)
    exact (h _).trans (by constructor <;> rfl)
  · exact (h _).trans (by constructor <;> rfl)

theorem State.adoptPastGrace_within (s : State) (n : Nat) : Within s (s.adoptPastGrace n) := by
  induction n generalizing s with
  | zero => exact Within.refl s
  | succ n ih =>
    unfold State.adoptPastGrace
    split
    · exact Within.refl s
    · exact (State.adopt_within _ _ _).trans (ih _)

theorem State.makeOrphan_within (s : State) (k : Lane) : Within s (s.makeOrphan k) := by
  have h : Within s (match s.tracker.orphans.get k with | none => s | some o => s.adopt k o) := by
    split
    · exact Within.refl s
    · exact State.adopt_within _ _ _
  exact h.trans (by constructor <;> rfl)

theorem State.trackLeading_within (s : State) (k : Lane) : Within s (s.trackLeading k) := by
  unfold State.trackLeading
  split
  · split
    · constructor <;> rfl
    · exact Within.refl s
  · split
    · constructor <;> rfl
    · exact State.makeOrphan_within s k

theorem State.unblockEntry_within (s : State) (e : Entry) (g : Passage) : Within s (s.unblockEntry e g) := by
  unfold State.unblockEntry
  split
  · refine Within.trans ?_ (State.passageEnd_within _ _ _ _)
    constructor <;> rfl
  · constructor <;> rfl

theorem State.unblockAdopted_within (s : State) (a : Adopted) (g : Passage) : Within s (s.unblockAdopted a g) := by
  unfold State.unblockAdopted
  split
  · refine Within.trans ?_ (State.strayEnd_within _ _ _ _)
    constructor <;> rfl
  · constructor <;> rfl

theorem State.unblock_within (s : State) (k : Lane) (b : Bool) : Within s (s.unblock k b) := by
  unfold State.unblock
  simp only []
  split
  · exact State.unblockEntry_within _ _ _
  · split
    · exact State.unblockAdopted_within _ _ _
    · constructor <;> rfl

theorem State.countLoss_within (s : State) (t : Tag) (k : Lane) : Within s (s.countLoss t k) := by
  unfold State.countLoss
  simp only []
  split
  · split
    · refine Within.trans ?_ (State.occur_quiet _ _).within
      constructor <;> rfl
    · constructor <;> rfl
  · exact Within.refl s

theorem State.closeLost_within (s : State) (e : Entry) : Within s (s.closeLost e) := by
  have h1 : Within s { s with tracker := s.tracker.remove e } := by constructor <;> rfl
  unfold State.closeLost
  simp only []
  have h2 := ((h1.trans (State.add_quiet _ (.loss e.piece.tag e.piece.mask e.piece.flags.batchClose) 0).within).trans
    (State.occur_quiet _ ⟨.lost, some e.piece.tag, soleLane e.piece.mask, detail16 e.remaining⟩).within).trans
    (within_foldl (fun t k => t.countLoss e.piece.tag k) (fun u k => State.countLoss_within u _ k)
      (laneList e.piece.mask) _)
  split
  · exact h2.trans (State.lostBatchClose_within _ _)
  · exact h2

theorem State.passUnverified_within (s : State) (e : Entry) : Within s (s.passUnverified e) := by
  have h1 : Within s { s with tracker := s.tracker.remove e } := by constructor <;> rfl
  unfold State.passUnverified
  simp only []
  split
  · exact h1.trans (State.add_quiet _ _ _).within
  · exact h1.trans (State.sortPiece_within _ _)
  · exact h1
  · exact h1

theorem State.closeEntry_within (s : State) (e : Entry) : Within s (s.closeEntry e) := by
  unfold State.closeEntry
  split
  · exact State.closeLost_within s e
  · exact State.passUnverified_within s e

theorem State.closeWindows_within (s : State) : Within s s.closeWindows :=
  within_foldl _ State.closeEntry_within _ _

theorem State.takeOrphans_within (s : State) (ks : List Lane) : Within s (s.takeOrphans ks) := by
  unfold State.takeOrphans
  refine Within.trans ?_ (within_foldl _ (fun u k => ?_) _ _)
  · constructor <;> rfl
  · constructor <;> rfl

theorem State.claimed_within (s : State) (a : Announcement) (ks : List Lane) (t : Nat) :
    Within s (s.claimed a ks t) := by
  unfold State.claimed
  simp only []
  split
  · exact (State.takeOrphans_within _ _).trans (State.passageEnd_within _ _ _ _)
  · split
    · exact (State.takeOrphans_within s ks).trans (by constructor <;> rfl)
    · exact (State.occur_quiet _ _).within

theorem State.receiveOrder_within (s : State) (a : Announcement) : Within s (s.receiveOrder a) := by
  unfold State.receiveOrder
  split
  · exact (State.occur_quiet _ _).within
  · split
    · split
      · constructor <;> rfl
      · exact Within.refl s
    · split
      · exact State.claimed_within _ _ _ _
      · unfold State.receiveLate
        split
        · exact (State.occur_quiet _ _).within
        · split
          · constructor <;> rfl
          · exact (State.occur_quiet _ _).within

theorem State.trackDrop_within (s : State) (i : Nat) (o : Int) (t : Tag) (p : Nat) (m : LaneSet) (b : Bool) (l : Nat)
    (st : Stamp) : Within s (s.trackDrop i o t p m b l st) := by
  unfold State.trackDrop
  simp only []
  split
  · exact (State.occur_quiet _ _).within
  · exact State.receiveOrder_within _ _

theorem State.trackPass_within (s : State) (i : Nat) (o : Int) (t : Tag) (p : Nat) (m : LaneSet) (f : Flags) (l : Nat)
    (st : Stamp) : Within s (s.trackPass i o t p m f l st) := by
  unfold State.trackPass
  simp only []
  split
  · exact (State.occur_quiet _ _).within
  · exact State.receiveOrder_within _ _

theorem State.trackLoss_within (s : State) (t : Tag) (b : Bool) : Within s (s.trackLoss t b) := by
  unfold State.trackLoss
  split
  · exact Within.refl s
  next e _ =>
    have h : Within s { s with tracker := s.tracker.remove e } := by constructor <;> rfl
    simp only []
    split
    · exact h.trans (State.lostBatchClose_within _ _)
    · exact h

/-! ### Feed unit and hole unit (chapters 7 and 8) -/

theorem State.insertStretch_within (s : State) (x : Stretch) : Within s (s.insertStretch x) := by
  unfold State.insertStretch
  split
  · constructor <;> rfl
  · exact (State.occur_quiet _ _).within

theorem State.withdraw_within (s : State) : Within s s.withdraw.1 := by constructor <;> rfl

theorem State.withdrawEnded_within (s : State) : Within s s.withdrawEnded := by
  unfold State.withdrawEnded
  split
  · constructor <;> rfl
  · exact Within.refl s

theorem State.dropOwnHole_within (s : State) : Within s s.dropOwnHole := by constructor <;> rfl

theorem State.useOwnHole_within (s : State) : Within s s.useOwnHole := by
  unfold State.useOwnHole
  split
  · exact (State.dropOwnHole_within s).trans (State.withdrawEnded_within _)
  · exact Within.refl s

theorem State.restartPatience_within (s : State) : Within s s.restartPatience := by constructor <;> rfl

theorem State.feed_within (s : State) (f : FeedUnit) : Within s { s with feed := f } := by constructor <;> rfl

theorem State.drop_within (s : State) (p : Piece) : Within s (s.drop p) := by
  have h (u : State) : Within s u → Within s
      (State.restartPatience (State.useOwnHole { u with feed := { u.feed with queue := u.feed.queue.drop 1, ready := false } })) :=
    fun hu => ((hu.trans (State.feed_within u _)).trans (State.useOwnHole_within _)).trans (State.restartPatience_within _)
  have h2 (u : State) (b : Bool) : Within s u →
      Within s (State.add { u with feed := { u.feed with batchLatch := false } } (dropOf p b) 0) :=
    fun hu => (hu.trans (State.feed_within u _)).trans (State.add_quiet _ _ _).within
  unfold State.drop
  exact h _ (h2 _ _ ((State.feed_within s _).trans (State.insertStretch_within _ _)))

theorem State.evalDrop_within (s : State) : Within s s.evalDrop := by
  unfold State.evalDrop
  split
  · split
    · exact Within.refl s
    · split
      · exact State.drop_within _ _
      · exact Within.refl s
  · exact Within.refl s

theorem reviewDrop_within (b s : State) : Within s (reviewDrop b s) := by
  unfold reviewDrop
  split
  · exact State.evalDrop_within s
  · exact Within.refl s

theorem State.retryWithdraw_within (s : State) : Within s s.retryWithdraw := by
  unfold State.retryWithdraw
  split
  · simp only []
    split <;> constructor <;> rfl
  · exact Within.refl s

theorem State.hole_within (s : State) (h : HoleUnit) : Within s { s with hole := h } := by constructor <;> rfl

theorem State.openHole_within (s : State) (p : Piece) (f : Fit) (a : Int) : Within s (s.openHole p f a) := by
  have h (u : State) (n : Notice) : Within s u → Within s (State.add { u with hole := ⟨some f, .current⟩ } n 0) :=
    fun hu => (hu.trans (State.hole_within u _)).trans (State.add_quiet _ _ _).within
  unfold State.openHole
  simp only []
  split
  · exact h _ _ (State.insertStretch_within s _)
  · exact (State.insertStretch_within s _).trans (State.restartPatience_within _)

theorem State.lookForHole_within (s : State) (p : Piece) : Within s (s.lookForHole p) := by
  unfold State.lookForHole
  simp only []
  split
  · exact State.restartPatience_within s
  · exact State.openHole_within _ _ _ _

theorem State.chooseHole_within (s : State) (p : Piece) : Within s (s.chooseHole p) := by
  unfold State.chooseHole
  split
  · exact Within.refl s
  · split
    · simp only []
      split
      · exact (State.retryWithdraw_within s).trans (State.lookForHole_within _ _)
      · exact State.retryWithdraw_within s
    · exact State.lookForHole_within _ _
    · exact Within.refl s

theorem State.addPatience_within (s : State) (d : Int) : Within s (s.addPatience d) := by
  unfold State.addPatience
  split
  · exact Within.refl s
  · split
    · simp only []
      have h : Within s { s with feed := { s.feed with patience := addTravel s.feed.patience d } } := by
        constructor <;> rfl
      split
      · exact h.trans (State.chooseHole_within _ _)
      · exact h
    · exact Within.refl s

theorem State.spendHole_within (s : State) : Within s s.spendHole := by
  unfold State.spendHole
  split
  · exact ((State.dropOwnHole_within s).trans (State.withdrawEnded_within _)).trans (State.restartPatience_within _)
  · exact Within.refl s

theorem State.moveMap_within (s : State) (d : Int) : Within s (s.moveMap d) := by
  have h (u : State) (b : Bool) (f : State → FeedUnit) : Within u
      (if 0 < d then { (if b then u.spendHole else u).retryWithdraw with
          feed := f (if b then u.spendHole else u).retryWithdraw }
        else (if b then u.spendHole else u).retryWithdraw) := by
    have h' : Within u (if b then u.spendHole else u).retryWithdraw := by
      refine Within.trans ?_ (State.retryWithdraw_within _)
      split
      · exact State.spendHole_within u
      · exact Within.refl u
    split
    · exact h'.trans (State.feed_within _ _)
    · exact h'
  have h2 := (State.feed_within s { s.feed with map := s.feed.map.map fun (x : Stretch) => (x.advance d).grow s.eyes }).trans
    (h _ (decide (0 < d)) fun u => { u.feed with map := u.feed.map.filter fun x => decide (0 ≤ x.tail) })
  simpa only [State.moveMap, decide_eq_true_eq] using h2

theorem State.endGrowing_within (s : State) (k : Lane) : Within s (s.endGrowing k) := by constructor <;> rfl

theorem State.feedLeading_within (s : State) (k : Lane) : Within s (s.feedLeading k) := by
  unfold State.feedLeading
  split
  · exact Within.refl s
  · exact (State.insertStretch_within _ _).trans (State.occur_quiet _ _).within

theorem State.feedDrop_within (s : State) (a i : Nat) (o : Int) (t : Tag) (p : Nat) (m : LaneSet) (l : Nat)
    (st : Stamp) : Within s (s.feedDrop a i o t p m l st) := by
  unfold State.feedDrop
  simp only []
  split
  · exact Within.refl s
  · split
    · exact (State.occur_quiet _ _).within
    · split
      · exact (State.occur_quiet _ _).within
      · split
        · exact Within.refl s
        · exact State.insertStretch_within _ _

theorem State.placeHole_within (s : State) (a : Nat) (m : LaneSet) (h : Int) (l : Nat) :
    Within s (s.placeHole a m h l) := by
  have h1 : Within s { s with feed := { s.feed with map := withoutReservation s.feed.map a } } := by
    constructor <;> rfl
  have h2 (u : State) (x : Stretch) : Within u (u.yieldTo x) := by
    unfold State.yieldTo
    refine Within.trans (Within.trans ?_ (State.insertStretch_within _ _)) (State.restartPatience_within _)
    constructor <;> rfl
  unfold State.placeHole
  simp only []
  split
  · exact h1
  · split
    · exact h1
    · split
      · exact h1.trans (h2 _ _)
      · exact h1.trans (State.insertStretch_within _ _)

theorem State.feedHole_within (s : State) (a i : Nat) (o : Int) (m : LaneSet) (h l : Nat) (st : Stamp) :
    Within s (s.feedHole a i o m h l st) := by
  unfold State.feedHole
  simp only []
  split
  · exact Within.refl s
  · split
    · exact (State.occur_quiet _ _).within
    · split
      · exact (State.occur_quiet _ _).within
      · split
        · exact (State.occur_quiet _ _).within
        · exact State.placeHole_within _ _ _ _ _

theorem State.holeCompleted_within (s : State) : Within s s.holeCompleted := by
  unfold State.holeCompleted; split <;> constructor <;> rfl

/-! ### Edges, and a whole travel advance (R6, R102) -/

theorem State.sort_within (s : State) (u : SortUnit) : Within s { s with sort := u } := by constructor <;> rfl

theorem State.handLeading_within (s : State) (k : Lane) : Within s (s.handLeading k) := by
  have h : Within s (if s.running then s.trackLeading k else s) := by
    split
    · exact State.trackLeading_within s k
    · exact Within.refl s
  unfold State.handLeading
  split
  · exact h
  · simp only []
    generalize (if s.running then s.trackLeading k else s) = u at h
    split
    · exact h.trans (State.sort_within u _)
    · exact h
  · split
    · exact (State.feedLeading_within _ _).trans (State.evalDrop_within _)
    · exact Within.refl s
  · exact Within.refl s

theorem State.handTrailing_within (s : State) (k : Lane) : Within s (s.handTrailing k) := by
  have h : Within s (if s.running then s.unblock k false else s) := by
    split
    · exact State.unblock_within s k false
    · exact Within.refl s
  unfold State.handTrailing
  split
  · exact h
  · simp only []
    generalize (if s.running then s.unblock k false else s) = u at h
    split
    · exact h.trans (State.sort_within u _)
    · exact h
  · exact (State.endGrowing_within _ _).trans (State.evalDrop_within _)
  · exact Within.refl s

theorem State.takeLevel_within (s : State) (k : Lane) : Within s (s.takeLevel k) := by
  have h (e : Quad Eye) : Within s { s with eyes := e } := by constructor <;> rfl
  unfold State.takeLevel
  split
  · exact Within.refl s
  · unfold State.levelChange
    simp only []
    split
    · exact h _
    · exact (h _).trans (State.evalDrop_within _)
    all_goals
      split
      · exact (h _).trans (State.handTrailing_within _ _)
      · exact (h _).trans (State.handLeading_within _ _)

theorem State.testStuck_within (s : State) (k : Lane) : Within s (s.testStuck k) := by
  have h (u : State) : Within u (u.laneStuck k) := by
    unfold State.laneStuck
    split
    · exact State.endGrowing_within u k
    · exact State.unblock_within u k true
    · exact State.unblock_within u k true
    · exact Within.refl u
  unfold State.testStuck
  simp only []
  split
  · refine Within.trans ?_ (h _)
    refine Within.trans ?_ (State.occur_quiet _ _).within
    constructor <;> rfl
  · exact Within.refl s

theorem State.forwardEvents_within (s : State) : Within s s.forwardEvents := by
  have h := within_foldl State.testStuck State.testStuck_within lanes s
  unfold State.forwardEvents
  simp only []
  split
  · exact (h.trans (State.adoptPastGrace_within _ _)).trans (State.closeWindows_within _)
  · exact h

/-- What a travel advance, taken by every block, leaves as it was (R6). -/
theorem State.travelAdvance_within (s : State) (d : Int) : Within s (s.travelAdvance d) := by
  have h0 : Within s (s.moveAll d) := by constructor <;> rfl
  have h1 : Within s ((s.moveAll d).moveFeed d) := by
    refine h0.trans ?_
    unfold State.moveFeed
    split
    · exact State.moveMap_within _ _
    · exact Within.refl _
  have h2 : Within s (if 0 < d then ((s.moveAll d).moveFeed d).forwardEvents else (s.moveAll d).moveFeed d) := by
    split
    · exact h1.trans (State.forwardEvents_within _)
    · exact h1
  unfold State.travelAdvance
  simp only []
  generalize (if 0 < d then ((s.moveAll d).moveFeed d).forwardEvents else (s.moveAll d).moveFeed d) = u at h2
  split
  · have h3 := h2.trans (State.evalDrop_within u)
    split
    · exact h3.trans (State.addPatience_within _ _)
    · exact h3
  · exact h2

theorem State.moved_within (s : State) (d : Int) : Within s (s.moved d) := by
  unfold State.moved
  split
  · exact Within.refl s
  · exact State.travelAdvance_within s d

end Sys2Proof.Machine
end

