-- ==== Sys2Proof/Laws/Claims.lean ====
section
/-! SUPPORT. What the choice of orphans can answer (R115 to R117), and what the first failing field of an image is
(R184): lemmas that a proof cites in place of unfolding the definitions. -/

namespace Sys2Proof.Machine

open Sys2Proof

/-! ### The first orphan (R115, R117) -/

/-- The orphan on lane k goes before the one on lane j: it has the greater travel, or as great a one and the lower
lane. -/
def goesFirst (k : Lane) (o : Orphan) (j : Lane) (x : Orphan) : Prop :=
  x.travel < o.travel ∨ (x.travel = o.travel ∧ k ≤ j)

/-- What the search for the first orphan has found on the lanes of a list. -/
def FoundOn (os : Quad (Option Orphan)) (ok : Lane → Orphan → Bool) (ks : List Lane) : Option (Lane × Orphan) → Prop
  | none => ∀ j ∈ ks, ∀ x, os.get j = some x → ok j x = false
  | some (k, o) => k ∈ ks ∧ os.get k = some o ∧ ok k o = true
      ∧ ∀ j ∈ ks, ∀ x, os.get j = some x → ok j x = true → goesFirst k o j x

theorem FoundOn.skip {os : Quad (Option Orphan)} {ok : Lane → Orphan → Bool} {ks : List Lane}
    {best : Option (Lane × Orphan)} (h : FoundOn os ok ks best) {k : Lane}
    (hk : ∀ x, os.get k = some x → ok k x = false) : FoundOn os ok (ks ++ [k]) best := by
  cases best with
  | none =>
    intro j hj x hx
    rcases List.mem_append.mp hj with hj | hj
    · exact h j hj x hx
    · obtain rfl := List.mem_singleton.mp hj; exact hk x hx
  | some b =>
    obtain ⟨h1, h2, h3, h4⟩ := h
    refine ⟨List.mem_append_left _ h1, h2, h3, fun j hj x hx hok => ?_⟩
    rcases List.mem_append.mp hj with hj | hj
    · exact h4 j hj x hx hok
    · obtain rfl := List.mem_singleton.mp hj; simp [hk x hx] at hok

theorem FoundOn.take {os : Quad (Option Orphan)} {ok : Lane → Orphan → Bool} {ks : List Lane}
    {best : Option (Lane × Orphan)} {k : Lane} {o : Orphan} (hk : os.get k = some o)
    (hok : ok k o = true) (hlt : ∀ i ∈ ks, i ≤ k) : FoundOn os ok ks best →
    FoundOn os ok (ks ++ [k])
      (match best with
        | none => some (k, o)
        | some (j, x) => if x.travel < o.travel then some (k, o) else some (j, x)) := by
  intro h
  cases best with
  | none =>
    refine ⟨by simp, hk, hok, fun j hj x hx hx' => ?_⟩
    rcases List.mem_append.mp hj with hj | hj
    · simp [h j hj x hx] at hx'
    · obtain rfl := List.mem_singleton.mp hj
      obtain rfl := Option.some.inj (hk.symm.trans hx)
      exact .inr ⟨rfl, le_refl _⟩
  | some b =>
    obtain ⟨i, y⟩ := b
    obtain ⟨h1, h2, h3, h4⟩ := h
    by_cases hb : y.travel < o.travel
    · simp only [if_pos hb]
      refine ⟨by simp, hk, hok, fun j hj x hx hx' => ?_⟩
      rcases List.mem_append.mp hj with hj | hj
      · rcases h4 j hj x hx hx' with h5 | ⟨h5, -⟩
        · exact .inl (h5.trans hb)
        · exact .inl (h5 ▸ hb)
      · obtain rfl := List.mem_singleton.mp hj
        obtain rfl := Option.some.inj (hk.symm.trans hx)
        exact .inr ⟨rfl, le_refl _⟩
    · simp only [if_neg hb]
      refine ⟨List.mem_append_left _ h1, h2, h3, fun j hj x hx hx' => ?_⟩
      rcases List.mem_append.mp hj with hj | hj
      · exact h4 j hj x hx hx'
      · obtain rfl := List.mem_singleton.mp hj
        obtain rfl := Option.some.inj (hk.symm.trans hx)
        rcases Nat.lt_or_ge o.travel y.travel with h5 | h5
        · exact .inl h5
        · exact .inr ⟨by omega, hlt i h1⟩

/-- The search answers the orphan that passes and goes before every other that does, or none where none passes. -/
theorem firstOrphan_found (os : Quad (Option Orphan)) (ok : Lane → Orphan → Bool) :
    FoundOn os ok lanes (firstOrphan os ok) := by
  have go : ∀ (rest done : List Lane) (best : Option (Lane × Orphan)), FoundOn os ok done best →
      (∀ i ∈ done, ∀ j ∈ rest, i ≤ j) → rest.Pairwise (· ≤ ·) →
      FoundOn os ok (done ++ rest) (rest.foldl
        (fun best k =>
          match os.get k with
          | none => best
          | some o =>
            if ok k o then
              match best with
              | none => some (k, o)
              | some (j, x) => if x.travel < o.travel then some (k, o) else some (j, x)
            else best) best) := by
    intro rest
    induction rest with
    | nil => intro done best h _ _; simpa using h
    | cons k rest ih =>
      intro done best h hlt hp
      obtain ⟨hk, hp⟩ := List.pairwise_cons.mp hp
      rw [List.foldl_cons, List.append_cons]
      refine ih _ _ ?_ (fun i hi j hj => ?_) hp
      · cases hg : os.get k with
        | none => exact h.skip fun x hx => by simp [hg] at hx
        | some o =>
          by_cases ho : ok k o = true
          · simp only [if_pos ho]
            exact FoundOn.take hg ho (fun i hi => hlt i hi k (by simp)) h
          · simp only [if_neg ho]
            exact h.skip fun x hx => by
              obtain rfl := Option.some.inj (hg.symm.trans hx)
              simpa using ho
      · rcases List.mem_append.mp hi with hi | hi
        · exact hlt i hi j (by simp [hj])
        · obtain rfl := List.mem_singleton.mp hi; exact hk j hj
  exact go lanes [] none (by simp [FoundOn]) (by simp) (by decide)

theorem mem_lanes (k : Lane) : k ∈ lanes := by fin_cases k <;> decide

theorem firstOrphan_none {os : Quad (Option Orphan)} {ok : Lane → Orphan → Bool} :
    firstOrphan os ok = none ↔ ∀ k x, os.get k = some x → ok k x = false := by
  have h := firstOrphan_found os ok
  constructor
  · intro e; rw [e] at h
    exact fun k x => h k (mem_lanes k) x
  · intro hall
    cases e : firstOrphan os ok with
    | none => rfl
    | some b =>
      rw [e] at h
      obtain ⟨-, h2, h3, -⟩ := h
      simp [hall _ _ h2] at h3

theorem firstOrphan_some {os : Quad (Option Orphan)} {ok : Lane → Orphan → Bool} {k : Lane} {o : Orphan} :
    firstOrphan os ok = some (k, o) ↔ os.get k = some o ∧ ok k o = true
      ∧ ∀ j x, os.get j = some x → ok j x = true → goesFirst k o j x := by
  have h := firstOrphan_found os ok
  constructor
  · intro e; rw [e] at h
    obtain ⟨-, h2, h3, h4⟩ := h
    exact ⟨h2, h3, fun j => h4 j (mem_lanes j)⟩
  · rintro ⟨h2, h3, h4⟩
    cases e : firstOrphan os ok with
    | none =>
      rw [e] at h
      simp [h k (mem_lanes k) o h2] at h3
    | some b =>
      obtain ⟨j, x⟩ := b
      rw [e] at h
      obtain ⟨-, g2, g3, g4⟩ := h
      obtain rfl : j = k := by
        rcases g4 k (mem_lanes k) o h2 h3 with a | ⟨a, a'⟩ <;> rcases h4 j x g2 g3 with b | ⟨b, b'⟩
        · omega
        · omega
        · omega
        · exact le_antisymm a' b'
      obtain rfl := Option.some.inj (g2.symm.trans h2)
      rfl

/-- A lane is among those near t1 exactly where it is within the set and its orphan's travel lies within the skew. -/
theorem mem_orphansNear {os : Quad (Option Orphan)} {within : LaneSet} {skew t1 : Nat} {k : Lane} :
    k ∈ orphansNear os within skew t1 ↔ hasLane within k = true
      ∧ ∃ o, os.get k = some o ∧ o.travel ≤ t1 + skew ∧ t1 ≤ o.travel + skew := by
  cases e : os.get k <;> simp [orphansNear, mem_lanes, e]

/-! ### The values of a passage formed of clear orphans (R116) -/

theorem foldl_max_eq (f : Orphan → Int) (l : List Orphan) : ∀ m g : Int, m ≤ g → (∀ o ∈ l, f o ≤ g) →
    (m = g ∨ ∃ o ∈ l, f o = g) → l.foldl (fun m o => max m (f o)) m = g := by
  induction l with
  | nil => simp
  | cons x l ih =>
    intro m g hm hall hex
    refine ih _ g (max_le hm (hall x (by simp))) (fun o ho => hall o (by simp [ho])) ?_
    have hx := hall x (by simp)
    rcases hex with rfl | ⟨o, ho, rfl⟩
    · exact .inl (max_eq_left hx)
    · rcases List.mem_cons.mp ho with rfl | ho
      · exact .inl (max_eq_right hm)
      · exact .inr ⟨o, ho, rfl⟩

/-- The measured length of clear orphans is the greatest t1 - t + m, held at 65535. -/
theorem clearLength_eq {l : List Orphan} {t1 n : Nat} (clear : ∀ o ∈ l, o.clear ≠ none)
    (hall : ∀ o ∈ l, ∀ c, o.clear = some c → (t1 : Int) - o.travel + c.measured ≤ n)
    (hex : ∃ o ∈ l, ∃ c, o.clear = some c ∧ (t1 : Int) - o.travel + c.measured = n) :
    clearLength l t1 = min 65535 n := by
  have greatest : l.foldl (fun m o => max m ((t1 : Int) - o.travel + (o.clear.map (·.measured)).getD 0)) 0 = (n : Int) := by
    refine foldl_max_eq _ l 0 n (by omega) (fun o ho => ?_) (.inr ?_)
    · obtain ⟨c, hc⟩ := Option.ne_none_iff_exists'.mp (clear o ho)
      simpa [hc] using hall o ho c hc
    · obtain ⟨o, ho, c, hc, h⟩ := hex
      exact ⟨o, ho, by simpa [hc] using h⟩
  unfold clearLength
  rw [greatest, satU16]
  omega

/-- The travel since the last trailing edge of clear orphans is the least of theirs. -/
theorem leastSince_eq {l : List Orphan} {n : Nat} (hall : ∀ o ∈ l, ∀ c, o.clear = some c → n ≤ c.since)
    (hex : ∃ o ∈ l, ∃ c, o.clear = some c ∧ c.since = n) : leastSince l = n := by
  have : (l.filterMap fun o => o.clear.map (·.since)).min? = some n := by
    rw [List.min?_eq_some_iff]
    obtain ⟨o, ho, c, hc, rfl⟩ := hex
    refine ⟨List.mem_filterMap.mpr ⟨o, ho, by simp [hc]⟩, fun b hb => ?_⟩
    obtain ⟨x, hx, hb⟩ := List.mem_filterMap.mp hb
    obtain ⟨d, hd, rfl⟩ := Option.map_eq_some_iff.mp hb
    exact hall x hx d hd
  simp [leastSince, this]

/-! ### The first failing field (R184) -/

/-- The checks of listen entry i stand at its two offsets. -/
theorem Image.checkListen_rises (im : Image) (i : Nat) :
    (Image.checkListen im i).Pairwise (fun a b => a.1 < b.1)
    ∧ ∀ c ∈ Image.checkListen im i, 0x020 + 3 * i ≤ c.1 ∧ c.1 < 0x020 + 3 * (i + 1) := by
  constructor
  · simp [Image.checkListen]
  · intro c hc
    simp only [Image.checkListen, List.mem_cons, List.not_mem_nil, or_false] at hc
    rcases hc with rfl | rfl <;> simp only <;> omega

/-- The checks of profile entry p stand, in rising order, in its twelve bytes. -/
theorem Image.checkProfile_rises (im : Image) (p : Nat) :
    (Image.checkProfile im p).Pairwise (fun a b => a.1 < b.1)
    ∧ ∀ c ∈ Image.checkProfile im p, 0x038 + 12 * p ≤ c.1 ∧ c.1 < 0x038 + 12 * (p + 1) := by
  unfold Image.checkProfile
  split
  · simp
  · constructor
    · simp [Image.checkWord, Image.checkByte]
    · intro c hc
      simp only [List.mem_cons, List.not_mem_nil, or_false] at hc
      rcases hc with rfl | rfl | rfl | rfl | rfl | rfl | rfl | rfl <;>
        simp [Image.checkWord, Image.checkByte, profileOffset] <;> omega

/-- Blocks of checks that follow one another at a constant distance rise where each of them does. -/
theorem blocks_rise (f : Nat → List FieldCheck) (base width : Nat)
    (h : ∀ i, (f i).Pairwise (fun a b => a.1 < b.1) ∧ ∀ c ∈ f i, base + width * i ≤ c.1 ∧ c.1 < base + width * (i + 1))
    (n : Nat) :
    ((List.range n).flatMap f).Pairwise (fun a b => a.1 < b.1)
    ∧ ∀ c ∈ (List.range n).flatMap f, base ≤ c.1 ∧ c.1 < base + width * n := by
  induction n with
  | zero => simp
  | succ n ih =>
    have low : ∀ c ∈ f n, base ≤ c.1 := fun c hc => (Nat.le_add_right base (width * n)).trans ((h n).2 c hc).1
    rw [List.range_succ, List.flatMap_append]
    simp only [List.flatMap_cons, List.flatMap_nil, List.append_nil]
    refine ⟨List.pairwise_append.mpr ⟨ih.1, (h n).1, fun a ha b hb => (ih.2 a ha).2.trans_le ((h n).2 b hb).1⟩, ?_⟩
    intro c hc
    rcases List.mem_append.mp hc with hc | hc
    · have := ih.2 c hc; exact ⟨this.1, by rw [Nat.mul_succ]; omega⟩
    · exact ⟨low c hc, ((h n).2 c hc).2⟩

/-- The checks of an image stand in rising order of offset (R184). -/
theorem Image.fieldChecks_rise (im : Image) : (Image.fieldChecks im).Pairwise fun a b => a.1 < b.1 := by
  have hl := blocks_rise _ 0x020 3 (Image.checkListen_rises im) 8
  have hp := blocks_rise (fun p => Image.checkProfile im (p + 1)) 0x044 12
    (fun i => by have h := Image.checkProfile_rises im (i + 1); exact ⟨h.1, fun c hc => by have := h.2 c hc; omega⟩) 15
  unfold Image.fieldChecks
  simp only [List.pairwise_append, List.mem_append]
  refine ⟨⟨⟨⟨?_, hl.1, ?_⟩, hp.1, ?_⟩, ?_, ?_⟩, ?_, ?_⟩
  · simp [Image.checkWord, Image.checkByte]
  · intro a ha b hb
    have := hl.2 b hb
    have : a.1 < 0x020 := by
      revert ha; revert a; simp [Image.checkWord, Image.checkByte]
    omega
  · intro a ha b hb
    have := hp.2 b hb
    have : a.1 < 0x044 := by
      rcases ha with ha | ha
      · revert ha; revert a; simp [Image.checkWord, Image.checkByte]
      · have := hl.2 a ha; omega
    omega
  · simp [Image.checkWord, Image.checkByte]
  · intro a ha b hb
    have : 0x0F8 ≤ b.1 := by
      revert hb; revert b; simp [Image.checkWord, Image.checkByte]
    have : a.1 < 0x0F8 := by
      rcases ha with (ha | ha) | ha
      · have : a.1 < 0x020 := by
          revert ha; revert a; simp [Image.checkWord, Image.checkByte]
        omega
      · have := hl.2 a ha; omega
      · have := hp.2 a ha; omega
    omega
  · rw [List.pairwise_map]
    exact List.pairwise_lt_range.imp (by intro a b h; simpa using h)
  · intro a ha b hb
    obtain ⟨k, -, rfl⟩ := List.mem_map.mp hb
    have : a.1 < 0x12E := by
      rcases ha with ((ha | ha) | ha) | ha
      · have : a.1 < 0x020 := by
          revert ha; revert a; simp [Image.checkWord, Image.checkByte]
        omega
      · have := hl.2 a ha; omega
      · have := hp.2 a ha; omega
      · revert ha; revert a; simp [Image.checkWord, Image.checkByte]
    simp only; omega

/-- Of a list whose offsets rise, the first failing check is the one at the lowest offset that fails. -/
theorem firstFailing_iff {l : List FieldCheck} (h : l.Pairwise fun a b => a.1 < b.1) (o : Nat) :
    ((l.find? fun c => !c.2).map (·.1)) = some o ↔ (o, false) ∈ l ∧ ∀ n, (n, false) ∈ l → o ≤ n := by
  induction l with
  | nil => simp
  | cons c l ih =>
    obtain ⟨n, b⟩ := c
    obtain ⟨hc, hl⟩ := List.pairwise_cons.mp h
    cases b with
    | false =>
      simp only [List.find?_cons, Bool.not_false, Option.map_some, Option.some.injEq, List.mem_cons, Prod.mk.injEq,
        and_true]
      constructor
      · rintro rfl
        exact ⟨.inl rfl, fun m hm => hm.elim (·.ge) fun hm => (hc _ hm).le⟩
      · rintro ⟨rfl | hm, hle⟩
        · rfl
        · have := hle n (.inl rfl); have := hc _ hm; simp at this; omega
    | true => simpa [List.find?_cons] using ih hl

/-- The first failure of an image whose sum is right: the lowest offset of a check that fails (R184). -/
theorem Image.firstFailure_iff {im : Image} (h : Image.sum im 0x000 0x13E = Image.word im 0x13E) (o : Nat) :
    Image.firstFailure im = some o
      ↔ (o, false) ∈ Image.fieldChecks im ∧ ∀ n, (n, false) ∈ Image.fieldChecks im → o ≤ n := by
  unfold Image.firstFailure
  rw [if_neg (not_not.mpr h)]
  exact firstFailing_iff (Image.fieldChecks_rise im) o

end Sys2Proof.Machine
end

