-- ==== Sys2Proof/Laws/Dispatch.lean ====
section
/-! SUPPORT. No command stops the part: every command, in every state, answers a next state. -/

namespace Sys2Proof.Machine

open Sys2Proof

/-- Every command answers a next state: the model has no stop. -/
theorem exec_answers_next (c : Instr) (s : State) : ∃ t, exec c s = .next t := by
  cases c <;> simp only [exec]
  case hardReset => exact ⟨_, rfl⟩
  case decoderEvent => unfold execDecoderEvent; simp only []; split <;> exact ⟨_, rfl⟩
  case beltRunInputChange => unfold execBeltRunInputChange; simp only []; split_ifs <;> exact ⟨_, rfl⟩
  case encoderLossTimerExpiry => unfold execEncoderLossTimerExpiry; split <;> exact ⟨_, rfl⟩
  case eyeRawChange => unfold execEyeRawChange; simp only []; split_ifs <;> exact ⟨_, rfl⟩
  case eyeDebounceExpiry => unfold execEyeDebounceExpiry; simp only []; split_ifs <;> exact ⟨_, rfl⟩
  case clampClosedEdge => unfold execClampClosedEdge; split_ifs <;> exact ⟨_, rfl⟩
  case spreaderReadyRising => unfold execSpreaderReadyRising; simp only []; split_ifs <;> exact ⟨_, rfl⟩
  case spreaderReadyFalling => unfold execSpreaderReadyFalling; split_ifs <;> [split; skip] <;> exact ⟨_, rfl⟩
  case releasePulseExpiry => unfold execReleasePulseExpiry; simp only []; split_ifs <;> exact ⟨_, rfl⟩
  case spreaderStuckTimerExpiry => unfold execSpreaderStuckTimerExpiry; simp only []; split_ifs <;> exact ⟨_, rfl⟩
  case batchCloseInputActive => unfold execBatchCloseInputActive; split_ifs <;> exact ⟨_, rfl⟩
  case holdInputChange => exact ⟨_, rfl⟩
  case dischargeDone => unfold execDischargeDone; split_ifs <;> exact ⟨_, rfl⟩
  case bladePulseExpiry => unfold execBladePulseExpiry; simp only []; split_ifs <;> exact ⟨_, rfl⟩
  case settleTimerExpiry => unfold execSettleTimerExpiry; simp only []; split_ifs <;> exact ⟨_, rfl⟩
  case offLineTimerExpiry => unfold execOffLineTimerExpiry; simp only []; split_ifs <;> exact ⟨_, rfl⟩
  case sendAttemptStart => unfold execSendAttemptStart; split_ifs <;> exact ⟨_, rfl⟩
  case lostContention => unfold execLostContention; split <;> [skip; split_ifs] <;> exact ⟨_, rfl⟩
  case transmitFailure => unfold execTransmitFailure; split <;> [skip; split_ifs] <;> exact ⟨_, rfl⟩
  case transmitCompletion => unfold execTransmitCompletion; split <;> exact ⟨_, rfl⟩
  case frameAbandoned => unfold execFrameAbandoned; split <;> exact ⟨_, rfl⟩
  case receivedFrameEnd => unfold execReceivedFrameEnd; split <;> exact ⟨_, rfl⟩
  case readStatus => exact ⟨_, rfl⟩
  case readFaults => exact ⟨_, rfl⟩
  case ackFaults => exact ⟨_, rfl⟩
  case readTally => unfold execReadTally; split_ifs <;> exact ⟨_, rfl⟩
  case readImage => unfold execReadImage; split_ifs <;> exact ⟨_, rfl⟩
  case writeConfig => unfold execWriteConfig; split_ifs <;> exact ⟨_, rfl⟩
  case validate => unfold execValidate; split_ifs <;> [skip; skip; split] <;> exact ⟨_, rfl⟩
  case join => unfold execJoin; split_ifs <;> exact ⟨_, rfl⟩
  case leave => unfold execLeave; split_ifs <;> exact ⟨_, rfl⟩
  case stopLine => unfold execStopLine; split_ifs <;> exact ⟨_, rfl⟩
  case resume => unfold execResume; split_ifs <;> exact ⟨_, rfl⟩
  case closeStack =>
    unfold execCloseStack
    split_ifs <;> [skip; skip; split] <;> [skip; skip; skip; split_ifs] <;> exact ⟨_, rfl⟩
  case clearRestart => exact ⟨_, rfl⟩
  case unknownCommand => unfold execUnknownCommand; split_ifs <;> exact ⟨_, rfl⟩
  case transactionCutShort active => cases active <;> exact ⟨_, rfl⟩
  case mediumBecomesIdle => unfold execMediumBecomesIdle; split_ifs <;> exact ⟨_, rfl⟩

/-- A step is one tick of the time base, or the command at the front of the queue. -/
theorem step_cases (s t : State) (h : step s = .next t) :
    (s.pending = [] ∧ t = s.tick) ∨ ∃ c rest, s.pending = c :: rest ∧ exec c { s with pending := rest } = .next t := by
  unfold step at h
  split at h
  next hp => injection h with h; exact .inl ⟨hp, h.symm⟩
  next c rest hp => exact .inr ⟨c, rest, hp, h⟩

end Sys2Proof.Machine
end

