-- ==== Sys2Proof/Laws/Framing.lean ====
section
/-! SUPPORT. Bits and numbers on the medium: a field's bits read back as its number, and how long a frame is. -/

namespace Sys2Proof.Machine

open Sys2Proof

@[simp] theorem bitsOf_length (n v : Nat) : (bitsOf n v).length = n := by simp [bitsOf]

theorem numberOf_append (l : List Bool) (b : Bool) : numberOf (l ++ [b]) = 2 * numberOf l + b.toNat := by
  simp [numberOf, List.foldl_append]

theorem bitsOf_succ (n v : Nat) : bitsOf (n + 1) v = bitsOf n (v / 2) ++ [v.testBit 0] := by
  unfold bitsOf
  rw [List.range_succ, List.map_append]
  congr 1
  · apply List.map_congr_left
    intro i hi
    have : i < n := by simpa using hi
    rw [← Nat.testBit_succ]
    congr 1
    omega
  · simp

/-- The low bits of a number, most significant first, read back as that number (R31). -/
theorem numberOf_bitsOf (n v : Nat) (h : v < 2 ^ n) : numberOf (bitsOf n v) = v := by
  induction n generalizing v with
  | zero => simp at h; simp [bitsOf, numberOf, h]
  | succ n ih =>
    rw [bitsOf_succ, numberOf_append, ih (v / 2) (by rw [Nat.pow_succ] at h; omega)]
    have : (v.testBit 0).toNat = v % 2 := by
      rcases Nat.mod_two_eq_zero_or_one v with h | h <;> simp [Nat.testBit_zero, h]
    omega

theorem coveredBits_length (ident : Byte) (data : List Byte) :
    (coveredBits ident data).length = 12 + 8 * data.length := by
  have : (data.flatMap fun b => bitsOf 8 b.toNat).length = 8 * data.length := by
    induction data with
    | nil => rfl
    | cons b l ih => simp [List.flatMap_cons, ih]; omega
  simp [coveredBits, this]; omega

/-- A frame's bits before stuffing: start, identifier, length, data and check (R31). -/
theorem frameBody_length (ident : Byte) (data : List Byte) :
    (frameBody ident data).length = 29 + 8 * data.length := by
  simp [frameBody, coveredBits_length]; omega

/-- The stuffed stretch without its inserted bits is the frame's body (R32). -/
theorem stuffFrom_kept (last : Bool) (run : Nat) (l : List Bool) :
    ((stuffFrom last run l).filter fun b => !b.2).map (·.1) = l := by
  induction l generalizing last run with
  | nil => rfl
  | cons b l ih =>
    simp only [stuffFrom]
    split
    · split <;> simp [ih]
    · split <;> simp [ih]

end Sys2Proof.Machine
end

