-- ==== Sys2Proof/Laws/Sorting.lean ====
section
/-! SUPPORT. What the sort unit's shared operations can do: performing and placing actions, closing a stack, counting
a piece, and a whole decision. -/

namespace Sys2Proof.Machine

open Sys2Proof

/-- What performing and placing actions leaves as it was (R158, R159). -/
structure SortUnit.Stacks (u v : SortUnit) : Prop where
  stackers : v.stackers = u.stackers
  runout : v.runout = u.runout
  tally : v.tally = u.tally
  gapCounter : v.gapCounter = u.gapCounter
  entryGap : v.entryGap = u.entryGap
  lastRoute : v.lastRoute = u.lastRoute

theorem SortUnit.Stacks.refl (u : SortUnit) : u.Stacks u := by constructor <;> rfl

theorem SortUnit.Stacks.trans {u v w : SortUnit} (h : u.Stacks v) (h' : v.Stacks w) : u.Stacks w := by
  cases h; cases h'; constructor <;> simp_all

theorem SortUnit.perform_stacks (u : SortUnit) (p : Timer) (a : ActionKind) : u.Stacks (u.perform p a) := by
  cases a <;> constructor <;> rfl

@[simp] theorem SortUnit.perform_actions (u : SortUnit) (p : Timer) (a : ActionKind) :
    (u.perform p a).actions = u.actions := by
  cases a <;> rfl

theorem SortUnit.performAll_stacks (p : Timer) (l : List Action) (u : SortUnit) :
    u.Stacks (l.foldl (fun v a => v.perform p a.kind) u)
    ∧ (l.foldl (fun v a => v.perform p a.kind) u).actions = u.actions := by
  induction l generalizing u with
  | nil => exact ⟨.refl u, rfl⟩
  | cons a l ih =>
    have h := ih (u.perform p a.kind)
    exact ⟨(u.perform_stacks p a.kind).trans h.1, by simpa using h.2⟩

/-- Performing what is due leaves the actions still to come, in their order (R159). -/
theorem SortUnit.performDue_actions (u : SortUnit) (p : Timer) :
    (u.performDue p).actions = u.actions.filter fun a => Decidable.decide (0 < a.countdown) := by
  unfold SortUnit.performDue
  rw [(SortUnit.performAll_stacks p _ _).2]

/-- Placing a piece's actions adds those with a countdown to the list, and no others (R158). -/
theorem SortUnit.place_spec (p : Timer) (new : List Action) (u : SortUnit) :
    u.Stacks (u.place p new) ∧ ((u.place p new).actions).Perm (u.actions ++ needPlaces new) := by
  unfold SortUnit.place needPlaces
  induction new generalizing u with
  | nil => exact ⟨.refl u, by simp⟩
  | cons a new ih =>
    simp only [List.foldl_cons]
    by_cases h : a.countdown = 0
    · obtain ⟨h1, h2⟩ := ih (u.perform p a.kind)
      simp only [h, if_true]
      refine ⟨(u.perform_stacks p a.kind).trans h1, ?_⟩
      simpa [h] using h2
    · obtain ⟨h1, h2⟩ := ih { u with actions := insertAction a u.actions }
      simp only [h, if_false]
      refine ⟨SortUnit.Stacks.trans (by constructor <;> rfl) h1, h2.trans ?_⟩
      simp only [bne_iff_ne, ne_eq, h, not_false_eq_true, List.filter_cons_of_pos]
      exact ((insertAction_perm a u.actions).append_right _).trans List.perm_middle.symm

/-- A tally record added: the queue holds it last and at most 16 records, and only the queue changes (R169). -/
theorem SortUnit.addTally_spec (u : SortUnit) (t : Tally) (h : u.tally.length ≤ 16) :
    (u.addTally t).1 = { u with tally := (u.addTally t).1.tally } ∧ (u.addTally t).1.tally.length ≤ 16
    ∧ (u.addTally t).1.tally.getLast? = some t := by
  unfold SortUnit.addTally Config.tallyCapacity
  split
  · simp
  next old rest e =>
    rw [e] at h
    split
    next hl => rw [e] at hl; simp at hl ⊢; simpa [e] using hl
    · simp at h ⊢; exact h

/-- A close leaves its stacker discharging with nothing on it, and every other stacker as it was (R164). -/
theorem SortUnit.close_stackers (u : SortUnit) (c : StackerNo) (r : CloseReason) :
    (u.close c r).1.stackers = u.stackers.set c ⟨true, .empty, .empty, false⟩ := by
  unfold SortUnit.close SortUnit.addTally
  simp only []
  split
  · rfl
  · split <;> rfl

theorem SortUnit.close_rest (u : SortUnit) (c : StackerNo) (r : CloseReason) :
    (u.close c r).1.actions = u.actions ∧ (u.close c r).1.route = u.route ∧ (u.close c r).1.lastRoute = u.lastRoute
    ∧ (u.close c r).1.gapCounter = u.gapCounter ∧ (u.close c r).1.entryGap = u.entryGap
    ∧ (u.close c r).1.bladeTimer = u.bladeTimer ∧ (u.close c r).1.runout = u.runout := by
  unfold SortUnit.close SortUnit.addTally
  simp only []
  split
  · simp
  · split <;> simp

/-- Counting a piece leaves the actions, the route and the gap measurement as they were (R158, R162 to R168). -/
theorem SortUnit.count_rest (u : SortUnit) (im : Image) (d : Dest) (p : Piece) (m : Bool) :
    let v := (u.count im d p m).1
    v.actions = u.actions ∧ v.route = u.route ∧ v.lastRoute = u.lastRoute ∧ v.gapCounter = u.gapCounter
    ∧ v.entryGap = u.entryGap ∧ v.bladeTimer = u.bladeTimer := by
  have hc (w : SortUnit) (c : StackerNo) (r : CloseReason) := w.close_rest c r
  cases d with
  | stacker c =>
    simp only [SortUnit.count, SortUnit.countPiece]
    split_ifs
    · simp [SortUnit.joinPre]
    · simpa [SortUnit.joinPre] using ⟨(hc u c .profile).1, (hc u c .profile).2.1, (hc u c .profile).2.2.1,
        (hc u c .profile).2.2.2.1, (hc u c .profile).2.2.2.2.1, (hc u c .profile).2.2.2.2.2.1⟩
    · simp only [SortUnit.countOn]
      split_ifs <;> simp [hc]
  | runout =>
    simp only [SortUnit.count, SortUnit.countRunout]
    split_ifs
    · simp only [SortUnit.lostBatch]
      split
      · simp
      · split_ifs <;> simp [hc]
    · simp

end Sys2Proof.Machine
end

