-- ==== Sys2Proof/Tests/Slice0.lean ====
section
/-! SUPPORT. The model's own tests: ill-formed commands that WellFormed refuses, the manual's worked examples, at most two
small steps for each command, and for every obligation with hypotheses a concrete state and operands that meet them.
Expected results come from the section of spec/ named before each test. -/

namespace Sys2Proof.Tests

set_option maxRecDepth 100000
set_option Elab.async false

open Sys2Proof Sys2Proof.Machine

/-! ### A station to test on -/

/-- A valid image: address 5, four lanes, a step of 256 (1 mm per count), stations 1 and 2 listed, profile 1 (200 mm,
SINGLE, HALF, stacker 0, target 3) and profile 2 (2000 mm, FULL, THIRDS, stacker 1, target 2, reject), 3 stackers. -/
def imageFor (role : Byte) : Image :=
  let body : List Byte :=
    [5, role, 4, 1, 0x01, 0x00, 10, 5, 0, 3, 0x0F, 0xA0, 0x00, 100, 50, 10, 20, 2,
     0, 40, 0, 60, 0x01, 0x2C, 0x13, 0x88, 0x02, 0x58, 0x03, 0xE8, 100, 50]
    ++ ([1, 0x01, 0xF4, 2] ++ (if role = 1 then [0xFE, 0x0C] else [0x01, 0x2C])) ++ List.replicate 18 0
    ++ List.replicate 12 0
    ++ [0, 200, 0, 30, 0, 50, 0, 20, 1, 1, 0, 3]
    ++ [0x07, 0xD0, 0, 100, 0, 100, 0, 100, 0, 2, 1, 0x82]
    ++ List.replicate 156 0
    ++ [3, 100, 0x0B, 0xB8, 0, 100, 0, 150, 0x0F, 0xA0, 0, 200] ++ List.replicate 42 0 ++ List.replicate 16 0
  body ++ wordBytes (Image.sum body 0 0x13E)

/-- The next state, for a test that goes on from it. -/
def after (s : State) (c : Instr) : State :=
  match exec c s with
  | .next t => t
  | .fault _ => s
  | .refused _ => s

theorem after_next (s : State) (c : Instr) : exec c s = .next (after s c) := by
  obtain ⟨t, h⟩ := exec_answers_next c s
  simp [after, h]

/-- A CONFIGURED station of the role given (1 FEED, 2 CHECK, 3 SORT). -/
def configured (role : Byte) : State :=
  { State.reset with
    spi := { State.reset.spi with image := imageFor role }
    control := { State.reset.control with state := .configured } }

/-- The station in JOINING, with its PRESENT waiting. -/
def joined (role : Byte) : State := after (configured role) .join

/-- The station in RUNNING. -/
def running (role : Byte) : State := after (joined role) .settleTimerExpiry

/-- The station in RUNNING with the medium idle. -/
def idle (role : Byte) : State := after (running role) .mediumBecomesIdle

/-- A whole frame from another station. -/
def frameOf (a : Nat) (n : Notice) : List Bool := frameBits (BitVec.ofNat 8 (n.code * 16 + a)) n.bytes

/-- A severity put in force for one kind, and its mask. -/
def withPolicy (s : State) (k : FaultKind) (p : Policy) : State :=
  { s with faults := { s.faults with policy := s.faults.policy.set k.place p } }

/-- What the part has returned after a take with `n` argument bytes: the result code and the response. -/
def replied (s : State) (n : Nat) : List Byte := s.spi.returned.drop (1 + n)

/-- A piece of profile 1. -/
def piece1 (n : Byte) (mask : LaneSet) : Piece := ⟨⟨1, n⟩, 1, mask, 200, none, .none⟩

/-- An AWAITED entry for a piece. -/
def awaited (p : Piece) (remaining : Int) (placing : Nat) : Entry := ⟨p, remaining, 40, 60, none, placing⟩

/-- The tracker with entries, none of them moved. -/
def withEntries (s : State) (l : List Entry) : State :=
  { s with tracker := { s.tracker with entries := l, nextPlacing := 9 } }

/-- A FEED station in RUNNING with a head record ready and the belt clear for it. -/
def headReady : State :=
  let s := running 1
  { s with
    feed := { s.feed with queue := [piece1 7 2#4], ready := true, handshake := .ready, spreader := true }
    eyes := s.eyes.mapAt fun _ (e : Eye) => { e with clearRun := 400 } }

/-! ### WellFormed refuses what is ill-formed -/

theorem test_wellFormed_refuses_places_past_a_frame :
    (Instr.lostContention 124).wellFormed = false ∧ (Instr.transmitFailure 124).wellFormed = false := by decide

theorem test_wellFormed_refuses_bits_without_a_start_bit :
    (Instr.frameAbandoned [true, false]).wellFormed = false ∧ (Instr.frameAbandoned []).wellFormed = false := by decide

theorem test_wellFormed_refuses_bits_longer_than_a_frame :
    (Instr.frameAbandoned (List.replicate 125 false)).wellFormed = false
    ∧ (Instr.receivedFrameEnd (List.replicate 125 false)).wellFormed = false := by decide +kernel

theorem test_wellFormed_refuses_bits_shorter_than_a_frame :
    (Instr.receivedFrameEnd (List.replicate 36 false)).wellFormed = false
    ∧ (Instr.receivedFrameEnd (true :: List.replicate 40 false)).wellFormed = false := by decide +kernel

theorem test_wellFormed_refuses_data_past_one_count_byte :
    (Instr.writeConfig 0 (List.replicate 256 0)).wellFormed = false := by decide +kernel

theorem test_wellFormed_refuses_known_code : (Instr.unknownCommand 0x22).wellFormed = false := by decide

theorem test_wellFormed_accepts : (Instr.lostContention 123).wellFormed = true
    ∧ (Instr.receivedFrameEnd (frameOf 3 .resume)).wellFormed = true
    ∧ (Instr.writeConfig 0 (List.replicate 255 0)).wellFormed = true ∧ (Instr.unknownCommand 0x06).wellFormed = true := by
  decide +kernel

/-! ### The manual's worked examples -/

/-- Chapter 1.3, counts 1 to 10 with S = 300: advance and new f of each. -/
theorem test_accumulator_step_300 :
    [(0, true), (44, true), (88, true), (132, true), (176, true), (220, true), (8, false), (220, false), (176, true),
      (220, true)].map (fun x => (countAdvance x.1 300 x.2, countFraction x.1 300 x.2))
    = [(1, 44), (1, 88), (1, 132), (1, 176), (1, 220), (2, 8), (-2, 220), (-1, 176), (1, 220), (2, 8)] := by decide

/-- Chapter 1.3, S = 100: the six counts and the reverse count that undoes the sixth. -/
theorem test_accumulator_step_100 :
    [(0, true), (100, true), (200, true), (44, true), (144, true), (244, true), (88, false)].map
      (fun x => (countAdvance x.1 100 x.2, countFraction x.1 100 x.2))
    = [(0, 100), (0, 200), (1, 44), (0, 144), (0, 244), (1, 88), (-1, 244)] := by decide

/-- R33: the check of the nine characters 1 to 9 is 29B1h. -/
theorem test_frame_check_of_the_nine_digits :
    frameCheck ([0x31, 0x32, 0x33, 0x34, 0x35, 0x36, 0x37, 0x38, 0x39].flatMap (bitsOf 8)) = 0x29B1#16 := by
  decide +kernel

/-- Chapter 3.4, three stations start together: station 6 loses at identifier bit 5 and station 3 at bit 4, places 3 and
4 of the frame, where they drive recessive; station 3's bit 5 is no such place. -/
theorem test_contention_of_three_stations :
    recessiveIdentifierBit 102 [0, 0, 0, 0, 0, 0, 0] 3 = true ∧ recessiveIdentifierBit 83 [0, 0, 0, 0, 0, 0, 0, 0] 4 = true
    ∧ recessiveIdentifierBit 83 [0, 0, 0, 0, 0, 0, 0, 0] 3 = false := by decide +kernel

/-- Chapter 3.5, a full queue, steps 1 to 4: what is put out, and the kinds left. -/
theorem test_full_queue :
    let slot (n : Notice) : Slot := ⟨n, 0, false⟩
    let pass (k : Byte) := slot (.pass ⟨1, k⟩ 1 1 .none 0 ⟨0, false⟩)
    let loss (k : Byte) := slot (.loss ⟨1, k⟩ 1 false)
    let present := slot (.present 2 4 0 false false)
    let halt := slot (.halt 1 none)
    putFrame [loss 40, loss 41, pass 42, pass 43, pass 44, pass 45, pass 46, present] (pass 47)
      = ([loss 40, loss 41, pass 42, pass 43, pass 44, pass 45, pass 46, pass 47], some present)
    ∧ putFrame [loss 40, loss 41, pass 42, pass 43, pass 44, pass 45, pass 46, pass 47] (pass 48)
      = ([loss 40, loss 41, pass 42, pass 43, pass 44, pass 45, pass 46, pass 47], some (pass 48))
    ∧ putFrame [loss 40, loss 41, pass 42, pass 43, pass 44, pass 45, pass 46, pass 47] (loss 49)
      = ([loss 40, loss 41, loss 49, pass 42, pass 43, pass 44, pass 45, pass 46], some (pass 47))
    ∧ putFrame [loss 40, loss 41, loss 49, pass 42, pass 43, pass 44, pass 45, pass 46] halt
      = ([halt, loss 40, loss 41, loss 49, pass 42, pass 43, pass 44, pass 45], some (pass 46)) := by decide +kernel

/-- Chapter 5.9, the window of one PASS: tolerances 92 and 157 at offset 6400, 131 and 251 at offset 14200. -/
theorem test_tolerances : tolerance 60 5 6400 = 92 ∧ tolerance 80 12 6400 = 157 ∧ tolerance 60 5 14200 = 131
    ∧ tolerance 80 12 14200 = 251 ∧ tolerance 60 5 600 = 63 ∧ tolerance 80 12 600 = 88 := by decide

/-- Chapter 6.8, delayed variant: the measured length of the four clear orphans, and the least travel since an edge. -/
theorem test_delayed_claim :
    let o (t m s : Nat) : Orphan := ⟨t, some ⟨m, s⟩, false, false⟩
    clearLength [o 2448 2390 58, o 2470 2398 72, o 2460 2395 65, o 2440 2390 50] 2470 = 2420
    ∧ leastSince [o 2448 2390 58, o 2470 2398 72, o 2460 2395 65, o 2440 2390 50] = 50 := by decide +kernel

/-- Chapter 8.6, the choices: candidates of stations 2 and 3 with hole lead 500, horizon 12000 and H = 3300. -/
theorem test_hole_choices :
    let im : Image := Image.write (imageFor 1) 0x018 [0x2E, 0xE0, 0x01, 0xF4]
    let x (h : Int) (l : Nat) : Stretch := ⟨.piece, 1, none, 15, h, l, false, false⟩
    holeHead im [x 600 2900, x 7200 2600] 15 3300 = some 3501
    ∧ holeHead im [x 300 2600, x 4600 2900, x 11200 2600] 15 3300 = some 7501 := by decide +kernel

/-- Chapter 9.8, fold limits at B = 1800, Fl = 120, Fr = 400, and the clash at Fr = 600. -/
theorem test_fold_limits :
    let im : Image := Image.write (imageFor 3) 0x0FA [0x07, 0x08, 0, 120, 0x01, 0x90]
    let slow : Image := Image.write im 0x0FE [0x02, 0x58]
    foldArithmetic im [] .half 2600 0 = ⟨some [380], []⟩ ∧ foldArithmetic im [] .thirds 2400 0 = ⟨some [80, 880], []⟩
    ∧ foldArithmetic im [] .half 3360 0 = ⟨some [0], []⟩ ∧ foldArithmetic im [] .half 3361 0 = ⟨none, [1]⟩
    ∧ foldArithmetic im [] .thirds 1100 0 = ⟨some [1130], [2]⟩
    ∧ foldArithmetic slow [⟨.fireBlade, 870⟩] .half 500 0 = ⟨none, [3]⟩ := by decide +kernel

/-- Chapter 9.8, route countdowns at V = 2600, Vs = 300, and the mixed napkin at g = 60. -/
theorem test_route_countdowns :
    let im : Image := Image.write (imageFor 3) 0x100 [0x0A, 0x28, 0x01, 0x2C]
    compareRoute im false .runout (.stacker 1) 300 1400 0 = ⟨.stacker 1, .stacker 1, false, [⟨.setRoute (.stacker 1), 900⟩]⟩
    ∧ compareRoute im false .runout (.stacker 1) 300 2500 0
      = ⟨.stacker 1, .stacker 1, false, [⟨.setRoute (.stacker 1), 0⟩]⟩
    ∧ compareRoute im false (.stacker 1) .runout 60 500 0 = ⟨.stacker 1, .stacker 1, true, []⟩ := by decide +kernel

/-- Chapter 2.3, profile 0 of a line's five entries: 2900, 300, 250, FULL. -/
theorem test_profile_zero :
    let im : Image := Image.write (List.replicate 320 0) 0x044
      ([0x0B, 0x54, 0, 60, 0x01, 0x2C, 0, 200, 0, 0, 0, 1] ++ [0x0A, 0x28, 0, 60, 0, 250, 0, 250, 0, 0, 0, 1]
        ++ [0x09, 0x60, 0, 60, 0, 250, 0, 250, 0, 0, 0, 1] ++ [0x02, 0xEE, 0, 60, 0, 150, 0, 150, 1, 0, 0, 1]
        ++ [0x01, 0xF4, 0, 60, 0, 100, 0, 120, 1, 0, 0, 1])
    let v := Image.profileZero im
    (v.nominal, v.gapBefore, v.gapAfter, v.laneClass) = (2900, 300, 250, .full) := by decide +kernel

/-- Chapter 9.8, a stack through two discharges, its first closes: COUNT at the fourth piece, then a pre-stack of three
with batch owed closes with BATCH at the discharge-done. -/
theorem test_stack_closes_by_count_and_batch :
    let im : Image := Image.write (imageFor 3) 0x05B [4]
    let p (n : Byte) (b : Bool) : Piece := ⟨⟨2, n⟩, 2, 15, 2000, none, { Flags.none with batchClose := b }⟩
    let u (x : SortUnit) (n : Byte) (b : Bool) : SortUnit := (x.countPiece im 0 (p n b) false).1
    let a := u (u (u (u (.cleared 0 []) 90 false) 91 false) 92 false) 93 false
    let b := u (u (u a 94 false) 95 false) 96 true
    let c := (b.dischargeDone im 0).1
    a.tally = [⟨0, some 2, 4, .count, false, false, some ⟨2, 90⟩, some ⟨2, 93⟩⟩]
    ∧ (b.stackers.get 0).pre.count = 3 ∧ (b.stackers.get 0).preFull im = true
    ∧ c.tally = a.tally ++ [⟨0, some 2, 3, .batch, false, false, some ⟨2, 94⟩, some ⟨2, 96⟩⟩]
    ∧ (c.stackers.get 0).discharging = true := by decide +kernel

/-! ### The image and the port's bytes -/

theorem test_images_are_valid : Image.firstFailure (imageFor 1) = none ∧ Image.firstFailure (imageFor 2) = none
    ∧ Image.firstFailure (imageFor 3) = none := by decide +kernel

/-- R184: the sum is checked first, and then the lowest offset that fails. -/
theorem test_validation_names_the_first_failing_field :
    Image.firstFailure (Image.write (imageFor 1) 0x002 [5]) = some 0x13E
    ∧ (let im := Image.write (imageFor 1) 0x002 [5, 9]
       Image.firstFailure (Image.write im 0x13E (wordBytes (Image.sum im 0 0x13E))) = some 0x002) := by decide +kernel

/-- R182: transactions written out byte by byte. -/
theorem test_transactions_written_out :
    decodeTransaction [0x03, 0x12, 0x34, 0xFF] = .ackFaults 0x1234
    ∧ decodeTransaction [0x10, 0x00, 0x38, 2, 0xAA, 0xBB] = .writeConfig 0x0038 [0xAA, 0xBB]
    ∧ decodeTransaction [0x10, 0x00, 0x38, 2, 0xAA] = .transactionCutShort
    ∧ decodeTransaction [0x20] = .join ∧ decodeTransaction [0x06] = .unknownCommand 0x06 := by decide

/-- R188: the bytes of a DROP and of a HALT, and a frame that is read back from its bits. -/
theorem test_notice_bytes_and_frame :
    (Notice.drop ⟨2, 31⟩ 2 15 true 2600 ⟨30, false⟩).bytes = [2, 31, 0xF2, 0x01, 0x0A, 0x28, 0, 30]
    ∧ (Notice.halt 1 (some ⟨1, 40⟩)).bytes = [1, 1, 40]
    ∧ follow (frameOf 2 (.drop ⟨2, 31⟩ 2 15 true 2600 ⟨30, false⟩))
      = .ended ⟨0x52, [2, 31, 0xF2, 0x01, 0x0A, 0x28, 0, 30],
          frameCheck (coveredBits 0x52 [2, 31, 0xF2, 0x01, 0x0A, 0x28, 0, 30])⟩ := by decide +kernel

theorem test_no_table_word_spells_a_command : decodeTableWord 8 0x20 = none := by decide

/-! ### One step of each command -/

theorem test_hard_reset (s : State) : (after s (.hardReset Pins.inactive)).control.restartFlag = true := rfl

theorem test_decoder_event_on_the_line :
    (after (running 2) (.decoderEvent true false)).travel.count = 1
    ∧ ((after (running 2) (.decoderEvent true false)).eyes.get 0).clearRun = 1 := by decide +kernel

theorem test_belt_run_starts_the_loss_timer :
    (after (running 2) (.beltRunInputChange true)).travel.lossTimer = .running 100 250 := by decide +kernel

theorem test_encoder_loss :
    let s := after (after (running 3) (.beltRunInputChange true)) .encoderLossTimerExpiry
    s.travel.lost = true ∧ s.parked = true ∧ s.faults.isPending .encoder = true ∧ s.timeBase = 350 := by decide +kernel

theorem test_eye_raw_change_starts_the_debounce_timer :
    let s := after (running 2) (.eyeRawChange 1 true)
    (s.eyes.get 1).debounce = .running 5 250 ∧ (s.eyes.get 1).blocked = false := by decide +kernel

/-- R106, then R109: an orphan at the leading edge, clear at the trailing edge. -/
theorem test_eye_debounce_makes_an_orphan :
    let s := after (after (running 2) (.eyeRawChange 1 true)) (.eyeDebounceExpiry 1)
    s.tracker.orphans.get 1 = some ⟨0, none, false, false⟩ := by decide +kernel

theorem test_clamp_closed_edge :
    let s := after (running 1) (.clampClosedEdge 1#4)
    s.feed.queue.map (·.mask) = [2#4] ∧ s.control.seq = 1 ∧ s.clampEnable = true := by decide +kernel

theorem test_clamp_closed_edge_on_a_full_queue :
    let s := after (after (after (running 1) (.clampClosedEdge 1#4)) (.clampClosedEdge 2#4)) (.clampClosedEdge 1#4)
    s.feed.queue.length = 2 ∧ s.control.seq = 2 ∧ s.faults.first = some ⟨.feed, none, none, 1⟩ := by decide +kernel

theorem test_spreader_ready_on_an_empty_queue :
    let s := after (running 1) .spreaderReadyRising
    s.feed.queue.map (·.profile) = [0] ∧ s.faults.first = some ⟨.feed, some ⟨5, 0⟩, none, 2⟩
    ∧ s.feed.handshake = .ready := by decide +kernel

theorem test_spreader_ready_falling :
    (after headReady .spreaderReadyFalling).feed.handshake = .waiting := by decide +kernel

/-- R133 to R135: a decoder event lets the head fall, and the DROP is queued with age 0. -/
theorem test_drop :
    let s := after headReady (.decoderEvent true false)
    s.feed.queue = [] ∧ s.feed.map = [⟨.piece, 5, some ⟨1, 7⟩, 2#4, 0, 200, false, false⟩]
    ∧ s.port.queue.map (·.notice.code) = [5, 7] ∧ s.release = true := by decide +kernel

theorem test_release_pulse_expiry :
    let s := after (after headReady (.decoderEvent true false)) .releasePulseExpiry
    s.release = false ∧ s.feed.stuckTimer = .running 500 350 := by decide +kernel

theorem test_spreader_stuck_timer_expiry :
    let s := { headReady with feed := { headReady.feed with stuckTimer := .running 500 0, lastDropped := some ⟨1, 9⟩ } }
    (after s .spreaderStuckTimerExpiry).faults.first = some ⟨.feed, some ⟨1, 9⟩, none, 3⟩ := by decide +kernel

theorem test_batch_close_input :
    (after (running 1) .batchCloseInputActive).feed.batchLatch = true
    ∧ (after (running 3) .batchCloseInputActive).feed.batchLatch = false := by decide +kernel

theorem test_hold_input_parks : (after (running 2) (.holdInputChange true)).parked = true := by decide +kernel

theorem test_discharge_done :
    let s := { running 3 with sort := { (running 3).sort with
      stackers := (running 3).sort.stackers.set 0 ⟨true, .empty, ⟨1, some 1, some ⟨1, 1⟩, some ⟨1, 1⟩, false, false⟩, false⟩ } }
    s.discharge 0 = true ∧ (after s (.dischargeDone 0)).discharge 0 = false
    ∧ ((after s (.dischargeDone 0)).sort.stackers.get 0).stack.count = 1 := by decide +kernel

theorem test_blade_pulse_expiry :
    let s := { running 3 with sort := { (running 3).sort with bladeTimer := .running 100 200 } }
    s.blade = true ∧ (after s .bladePulseExpiry).blade = false ∧ (after s .bladePulseExpiry).timeBase = 300 := by
  decide +kernel

theorem test_settle_timer_expiry :
    (running 2).control.state = .running ∧ (running 2).timeBase = 250 ∧ (running 2).port.queue.length = 1 := by
  decide +kernel

theorem test_off_line_timer_expiry :
    let s := { idle 2 with port := { (idle 2).port with failures := 16, offLine := true, offLineTimer := .running 1000 250 } }
    (after s .offLineTimerExpiry).port.failures = 0 ∧ (after s .offLineTimerExpiry).timeBase = 1250 := by decide +kernel

/-- Chapter 3.6, a DROP that waits: slot age 40 is written; past 1023 the stale flag is. -/
theorem test_send_attempt_writes_the_age :
    let q (age : Nat) : List Slot := [⟨.drop ⟨2, 1⟩ 1 1 false 200 ⟨0, false⟩, age, false⟩]
    let s (age : Nat) := after { idle 2 with port := { (idle 2).port with queue := q age } } .sendAttemptStart
    (s 40).port.queue.map (·.notice) = [.drop ⟨2, 1⟩ 1 1 false 200 ⟨40, false⟩]
    ∧ (s 1200).port.queue.map (·.notice) = [.drop ⟨2, 1⟩ 1 1 false 200 ⟨1023, true⟩]
    ∧ (s 40).port.medium = .sending := by decide +kernel

/-- The PRESENT of station 5 has identifier 75h: its identifier bit 6 is place 2 of the frame. -/
theorem test_lost_contention :
    let s := after (idle 2) .sendAttemptStart
    (after s (.lostContention 2)).port.medium = .following false ∧ (after s (.lostContention 2)).port.failures = 0
    ∧ (after s (.lostContention 2)).port.queue.map (·.inSend) = [false]
    ∧ after s (.lostContention 1) = s := by decide +kernel

theorem test_transmit_failure_of_the_present_in_joining :
    let s := after (after (joined 2) .mediumBecomesIdle) .sendAttemptStart
    (after s (.transmitFailure 20)).control.state = .lockout
    ∧ (after s (.transmitFailure 20)).statusByte = 0x2C := by decide +kernel

theorem test_transmit_failure_takes_the_port_off_line :
    let s := after (idle 2) .sendAttemptStart
    let t := after { s with port := { s.port with failures := 15 } } (.transmitFailure 20)
    t.port.offLine = true ∧ t.faults.first = some ⟨.lineBus, none, none, 0x0775⟩ := by decide +kernel

theorem test_transmit_completion :
    let s := after (after (idle 2) .sendAttemptStart) .transmitCompletion
    s.port.queue = [] ∧ s.port.medium = .busy := by decide +kernel

/-- R32, R50: six dominant bits break the bit rules before the identifier is read. -/
theorem test_frame_abandoned :
    (after (idle 2) (.frameAbandoned (List.replicate 6 false))).faults.first = some ⟨.lineBus, none, none, 0x0200⟩ := by
  decide +kernel

/-- Chapter 4.8, a HALT from station 5 as a joining station takes it; here from station 2. -/
theorem test_received_halt :
    let s := after (idle 2) (.receivedFrameEnd (frameOf 2 (.halt 1 (some ⟨1, 40⟩))))
    s.control.haltSet = 4 ∧ s.control.firstHalt = some ⟨2, 1, some ⟨1, 40⟩⟩ ∧ s.lineStop = true := by decide +kernel

/-- R145 to R147 and chapter 8.6, station 3's HOLE first: the own hole not confirmed yields to it. -/
theorem test_received_hole_makes_the_own_hole_yield :
    let s := { idle 1 with
      feed := { (idle 1).feed with map := [⟨.ownHole, 5, none, 15, 600, 270, false, false⟩], patience := 1000 }
      hole := ⟨some ⟨50, 200, 20⟩, .current⟩
      port := { (idle 1).port with queue := [⟨.hole 15 600 270 ⟨0, false⟩, 0, false⟩] } }
    let t := after s (.receivedFrameEnd (frameOf 2 (.hole 15 1100 300 ⟨0, false⟩)))
    t.feed.map = [⟨.reserved, 2, none, 15, 600, 300, false, false⟩] ∧ t.feed.patience = 0 ∧ t.port.queue = []
    ∧ t.hole = ⟨none, .none⟩ := by decide +kernel

/-- R190: the status word's length, and state and park in its first bytes. -/
theorem test_read_status :
    let r := replied (after (running 2) .readStatus) 0
    r.length = 50 ∧ r.take 4 = [0x00, 3, 0, 0x50] := by decide +kernel

theorem test_read_faults :
    let s := after (running 1) .spreaderReadyRising
    (replied (after s .readFaults) 0).take 10 = [0x00, 0x04, 0x00, 0, 11, 0, 5, 0, 0, 2] := by decide +kernel

theorem test_ack_faults :
    let s := after (after (running 1) .spreaderReadyRising) (.ackFaults 0x0400)
    s.faults.pending = 0 ∧ s.faults.first = none ∧ s.faults.counts[10] = 1 ∧ s.attention = false := by decide +kernel

/-- R187: an empty queue returns the end record alone; so does a CHECK station, whatever record an earlier role left. -/
theorem test_read_tally :
    let record : Tally := ⟨0, some 1, 3, .count, false, false, some ⟨1, 1⟩, some ⟨1, 3⟩⟩
    let check : State := { running 2 with sort := { (running 2).sort with tally := [record] } }
    replied (after (running 3) (.readTally 1)) 1 = List.replicate 10 0
    ∧ replied (after (running 3) (.readTally 17)) 1 = [0x04]
    ∧ replied (after check (.readTally 2)) 1 = List.replicate 10 0 ∧ check.attention = false := by decide +kernel

theorem test_read_image :
    (after (running 2) (.readImage 0x0000 3)).spi.returned = [0x03, 0, 0, 0, 0x00, 5, 2, 4]
    ∧ replied (after (running 2) (.readImage 0x013F 2)) 3 = [0x04] := by decide +kernel

theorem test_write_config :
    let s := after (configured 2) (.writeConfig 0x013E [0xAB, 0xCD])
    s.control.state = .unconfigured ∧ s.spi.image.drop 0x13E = [0xAB, 0xCD] ∧ replied s 5 = [0x00] := by decide +kernel

theorem test_validate :
    (after { configured 2 with control := State.reset.control } .validate).control.state = .configured
    ∧ replied (after State.reset .validate) 0 = [0x05, 0x00, 0x00] := by decide +kernel

theorem test_join :
    (joined 1).spi.returned = [0x09, 0x00]
    ∧ (joined 1).port.queue.map (·.notice.code) = [7] := by decide +kernel

/-- Chapter 4.8, leaving with a halt outstanding and its HALT still waiting: the RESUME is owed. -/
theorem test_leave_with_a_halt_outstanding :
    let s := after (after (running 1) .stopLine) .leave
    s.control.state = .configured ∧ s.control.departure = true ∧ s.control.queued = some .halt
    ∧ s.control.owed = some .resume ∧ s.control.haltSet = 0 := by decide +kernel

theorem test_stop_line :
    let s := after (running 1) .stopLine
    s.control.haltSet = 0x20 ∧ s.port.queue.map (·.notice.code) = [1, 7] ∧ replied (after s .stopLine) 0 = [0x06] := by
  decide +kernel

theorem test_resume :
    let s := after (after (running 1) .stopLine) .resume
    s.control.haltSet = 0 ∧ s.control.owed = some .resume ∧ replied (after s .resume) 0 = [0x07] := by decide +kernel

theorem test_close_stack :
    let s := { running 3 with sort := { (running 3).sort with
      stackers := (running 3).sort.stackers.set 2 ⟨false, ⟨1, some 1, some ⟨1, 1⟩, some ⟨1, 1⟩, true, false⟩, .empty, false⟩ } }
    let t := after s (.closeStack 2)
    t.sort.tally = [⟨2, some 1, 1, .operator, true, false, some ⟨1, 1⟩, some ⟨1, 1⟩⟩] ∧ t.discharge 2 = true
    ∧ t.attention = true ∧ replied (after t (.closeStack 2)) 1 = [0x09] := by decide +kernel

theorem test_clear_restart : (after (running 2) .clearRestart).control.restartFlag = false := by decide +kernel

theorem test_unknown_command : replied (after (running 2) (.unknownCommand 0x06)) 0 = [0x01] := by decide +kernel

/-- R181: the transaction returns its status byte and changes nothing. -/
theorem test_transaction_cut_short :
    let s := after (running 2) .transactionCutShort
    s.spi.returned = [0x03] ∧ s.byteReturned 1 = 0 ∧ s.control = (running 2).control := by decide +kernel

/-- R181: the status byte is the one formed as select went active, in JOINING, though the take comes in RUNNING. -/
theorem test_status_byte_as_select_went_active :
    let s := after (after (after (joined 2) (.transactionCutShort true)) .settleTimerExpiry) .stopLine
    s.spi.returned = [0x0A, 0x00] ∧ s.spi.transaction = none ∧ s.control.haltSet = 0x20 := by decide +kernel

theorem test_medium_becomes_idle : (idle 2).port.medium = .idle := by decide +kernel

/-- R30: at the start bit of another station's frame the port follows it, and starts no attempt of its own in it. -/
theorem test_start_bit_of_another_station :
    (after (after (idle 2) (.mediumBecomesIdle false)) .sendAttemptStart).port.medium = .following false
    ∧ (after (running 2) (.mediumBecomesIdle false)).port.medium = .busy := by decide +kernel

theorem test_step_ticks_on_an_empty_queue : step State.reset = .next { State.reset with timeBase := 1 } := rfl

/-! ### Witnesses: for each obligation with hypotheses, a state and operands that meet them

Several clauses of one obligation are met one after the other in one theorem; ranges are met at their ends. -/

/-- A raw change that has started the debounce timer of lane 2. -/
def debouncing (role : Byte) : State := after (running role) (.eyeRawChange 1 true)

/-- The same with the raw level back at the level held, or with the eye's standing changed. -/
def debouncingAs (role : Byte) (x : EyeState) (blocked raw : Bool) : State :=
  let s := debouncing role
  { s with eyes := s.eyes.set 1 { s.eyes.get 1 with state := x, blocked := blocked, raw := raw } }

/-- A passing entry whose passage lane 1 has begun. -/
def passing (p : Piece) (travel : Nat) : Entry :=
  { awaited p 10 1 with passage := some ⟨1#4, 1#4, travel, false, false⟩ }

/-- The station given, its lane 1 blocked for `n` mm at a SUSPECT eye. -/
def blockedFor (s : State) (n : Nat) : State :=
  { s with eyes := s.eyes.set 0 ⟨true, true, .suspect, 2, 0, n, .stopped⟩ }

/-- A stray whose eyes are the lanes given, still blocked. -/
def strayOn (m : LaneSet) : Adopted :=
  ⟨⟨⟨5, 0⟩, 0, m, 200, none, ⟨false, true, false, false, false, false⟩⟩, ⟨m, m, 120, false, false⟩⟩

/-- The station given, holding one adopted stray. -/
def withStray (s : State) (a : Adopted) : State := { s with tracker := { s.tracker with adopted := [a] } }

/-- The station given, with one orphan, on lane 1. -/
def withOrphan (s : State) (o : Orphan) : State :=
  { s with tracker := { s.tracker with orphans := ⟨some o, none, none, none⟩ } }

/-- The station given, with a belt map. -/
def withMap (s : State) (l : List Stretch) : State := { s with feed := { s.feed with map := l } }

/-- R98, R113, R110: the advance past the stuck length of 4000 mm ends the passage, long and with no LENGTH. -/
theorem test_eye_stuck_ends_its_passage :
    let s := blockedFor (withEntries (running 2) [passing (piece1 1 1#4) 4000]) 4000
    let t := after s (.decoderEvent true false)
    (t.eyes.get 0).state = .stuck ∧ t.tracker.entries = []
    ∧ t.port.queue.map (·.notice) = [.pass ⟨1, 1⟩ 1 1#4 ⟨false, false, false, false, true, false⟩ 4001 ⟨0, false⟩,
        .present 2 4 (Image.profileSum s.image) true false] := by decide +kernel

/-- R108: a passage's travel that has reached 65535 stays so on reverse travel; one short of it does not. -/
theorem test_passage_travel_stays_at_its_greatest :
    ((⟨1, 1, 65535, false, false⟩ : Passage).advance (-10)).travel = 65535
    ∧ ((⟨1, 1, 65534, false, false⟩ : Passage).advance (-10)).travel = 65524 := by decide

/-- A station with its PRESENT in send. -/
def sending (role : Byte) : State := after (idle role) .sendAttemptStart

/-- A RUNNING station whose one frame, in send, is the one given. -/
def inSend (role : Byte) (n : Notice) : State :=
  { idle role with port := { (idle role).port with medium := .sending, queue := [⟨n, 0, true⟩] } }

/-- A SORT station whose stacker 0 is discharging with a pre-stack of `n` pieces of profile 1. -/
def discharging (n : Nat) (owed : Bool) : State :=
  { running 3 with sort := { (running 3).sort with
    stackers := (running 3).sort.stackers.set 0 ⟨true, .empty, ⟨n, some 1, some ⟨1, 1⟩, some ⟨1, 1⟩, false, false⟩, owed⟩ } }

/-- A SORT station whose stacker 3 collects one piece, with `n` tally records waiting. -/
def collecting (n : Nat) : State :=
  { running 3 with sort := { (running 3).sort with
    tally := List.replicate n ⟨0, some 1, 3, .count, false, false, some ⟨1, 1⟩, some ⟨1, 3⟩⟩
    stackers := (running 3).sort.stackers.set 3 ⟨false, ⟨1, some 1, some ⟨1, 1⟩, some ⟨1, 1⟩, false, false⟩, .empty, false⟩ } }

theorem witness_StepTakesFront :
    ({ State.reset with pending := [.join, .leave] } : State).pending = .join :: [.leave] ∧ State.reset.pending = [] := by
  decide +kernel

theorem witness_DecoderEvents :
    let s := running 2
    let lost := { s with travel := { s.travel with lost := true, beltRun := true } }
    State.reset.onLine = false ∧ (configured 1).onLine = false ∧ s.onLine = true ∧ (joined 2).onLine = true ∧ quarter true true = quarter s.travel.phaseA s.travel.phaseB + 2
    ∧ quarter true false = quarter s.travel.phaseA s.travel.phaseB + 1
    ∧ quarter false true = quarter s.travel.phaseA s.travel.phaseB + 3
    ∧ s.travel.lost = false ∧ lost.onLine = true ∧ lost.travel.lost = true := by decide +kernel

theorem witness_BeltRunAndEncoderLoss :
    (running 2).travel.lossTimer = .stopped
    ∧ (after (running 2) (.beltRunInputChange true)).travel.lossTimer = .running 100 250 := by decide +kernel

/-- An eye blocked for the stuck length and for one millimetre more, on a passing entry's lane, a stray's and no record's.
A reverse advance of 7 mm stays within 32767, one of 8 mm is held there; a forward advance that brings nothing about. -/
theorem witness_AdvanceMovesDistances :
    let goes (s : State) : Prop := (s.eyes.get 0).blocked = true ∧ (s.eyes.get 0).state = .suspect
      ∧ Image.word s.image 0x00A < (s.eyes.get 0).blockedRun ∧ (s.role = some .check ∨ s.role = some .sort)
    let x := passing (piece1 1 1#4) 20
    (¬ goes (blockedFor (running 2) 4000) ∧ (running 2).role = some .check)
    ∧ (goes (blockedFor (withEntries (running 2) [x]) 4001)
      ∧ x.passage = some ⟨1#4, 1#4, 20, false, false⟩ ∧ (1#4 : LaneSet).getLsbD (0 : Lane).val = true)
    ∧ (goes (blockedFor (withStray (running 3) (strayOn 1#4)) 65535) ∧ (running 3).tracker.entries = []
      ∧ (strayOn 1#4).passage.blocked.getLsbD (0 : Lane).val = true)
    ∧ (goes (blockedFor (running 3) 4001) ∧ (running 3).tracker.adopted = []) ∧
    let act (n : Int) : Action := ⟨.fireBlade, n⟩
    let s : State := { running 3 with sort := { (running 3).sort with actions := [act 1, act 32760] } }
    let m := (running 2).moveAll 1
    (running 1).role = some .feed ∧ (running 2).role = some .check ∧ s.role = some .sort
    ∧ (∀ a ∈ s.sort.actions, -32768 ≤ a.countdown) ∧ (∀ a ∈ s.sort.actions, a.countdown - (-7) ≤ 32767)
    ∧ (act 32760 ∈ s.sort.actions ∧ (∀ b ∈ s.sort.actions, b.countdown ≤ (act 32760).countdown)
      ∧ 32767 < (act 32760).countdown - (-8))
    ∧ (∀ k : Lane, (m.eyes.get k).blocked = false) ∧ (∀ k : Lane, m.tracker.orphans.get k = none)
    ∧ m.tracker.entries = [] := by decide +kernel

theorem witness_EyeRawChangeAndDebounceExpiry :
    let zero : State := { running 2 with spi := { (running 2).spi with image := Image.write (imageFor 2) 0x007 [0] } }
    let at_ (s : State) (x : EyeState) (blocked raw : Bool) : Prop :=
        (s.eyes.get 1).debounce = .running 5 250 ∧ (s.eyes.get 1).state = x ∧ (s.eyes.get 1).blocked = blocked
        ∧ (s.eyes.get 1).raw = raw
    let off : State := { debouncing 3 with control := { (debouncing 3).control with state := .configured } }
    let beside : State := { debouncing 3 with
        eyes := (debouncing 3).eyes.set 3 { (debouncing 3).eyes.get 3 with blocked := true } }
    (((running 2).eyes.get 1).raw = false)
    ∧ (((running 2).eyes.get 1).raw ≠ true ∧ (running 2).spi.frozen = true ∧ Image.byte (running 2).image 0x007 ≠ 0)
    ∧ ((State.reset.eyes.get 3).raw ≠ true ∧ State.reset.spi.frozen = false
        ∧ (State.reset.eyes.get 3).blocked = (State.reset.eyes.get 3).raw ∧ (State.reset.eyes.get 3).state ≠ .stuck
        ∧ AtRest State.reset ∧ State.reset.onLine = false)
    ∧ ((zero.eyes.get 1).raw ≠ true ∧ zero.spi.frozen = true ∧ Image.byte zero.image 0x007 = 0
        ∧ (zero.eyes.get 1).debounce = .stopped)
    ∧ (at_ (debouncingAs 2 .normal false false) .normal false false
      ∧ at_ (debouncingAs 2 .off true false) .off true false ∧ at_ (debouncingAs 1 .stuck true false) .stuck true false
      ∧ at_ (debouncingAs 2 .suspect true false) .suspect true false
      ∧ (debouncingAs 2 .suspect true false).role = some .check ∧ (debouncingAs 2 .suspect true false).running = true
      ∧ (after (joined 2) (.eyeRawChange 1 true)).running = false
      ∧ ((after (joined 2) (.eyeRawChange 1 true)).eyes.get 1).debounce = .running 5 0
      ∧ at_ (debouncing 1) .normal false true ∧ (debouncing 1).role = some .feed
      ∧ (at_ off .normal false true ∧ off.role = some .sort ∧ off.onLine = false)
      ∧ (at_ (debouncingAs 3 .normal true false) .normal true false ∧ (debouncingAs 3 .normal true false).role = some .sort
        ∧ (debouncingAs 3 .normal true false).running = true)
      ∧ (at_ (debouncing 3) .normal false true ∧ (debouncing 3).running = true
        ∧ ∀ j : Lane, j ≠ 1 → ((debouncing 3).eyes.get j).blocked = false)
      ∧ (at_ beside .normal false true ∧ beside.role = some .sort ∧ beside.onLine = true
        ∧ (beside.eyes.get 3).state = .normal ∧ (beside.eyes.get 3).blocked = true)
      ∧ ((after (joined 3) (.eyeRawChange 1 true)).onLine = true
        ∧ (after (joined 3) (.eyeRawChange 1 true)).running = false)) := by
  dsimp only [AtRest]; and_intros <;> decide +kernel

/-- The clause of R130, E being 300 and the early fixed tolerance 40: a tail at 260, the last that covers E, one at 259, at a
distance of 1, and a map with no piece on the lane. -/
theorem witness_EyeRawChangeAndDebounceExpiry_unannounced :
    let x (head : Int) : Stretch := ⟨.piece, 1, none, 1#4, head, 100, false, false⟩
    let wide : Int := Image.word (running 1).image 0x012
    let point : Int := Image.word (running 1).image 0x016
    (x 160 ∈ (withMap (running 1) [x 160]).feed.map ∧ (x 160).kind = .piece ∧ (x 160).mask.getLsbD (0 : Lane).val = true
      ∧ (x 160).head - wide ≤ point ∧ point ≤ (x 160).head + (x 160).length + wide)
    ∧ ((withMap (running 1) [x 159]).feed.map = [x 159]
      ∧ point - ((x 159).head + (x 159).length + wide) = 1 ∧ (x 159).head - wide ≤ point)
    ∧ (running 1).feed.map = [] := by decide +kernel

/-- The join at the skew of 50 mm, the match at both ends of the window [-60, 40], and the orphan. -/
theorem witness_LeadingEdgeAtTracker :
    let p := piece1 1 15#4
    (ListLaw (withEntries (running 2) [passing p 50]) ∧ (running 2).travel.lost = false
      ∧ (passing p 50).piece.mask.getLsbD 1 = true ∧ (50 : Nat) ≤ Image.byte (running 2).image 0x00E
      ∧ (passing p 50).passage = some ⟨1#4, 1#4, 50, false, false⟩ ∧ (1#4).getLsbD 1 = false)
    ∧ (∀ r : Int, r = -60 ∨ r = 40 → ListLaw (withEntries (running 2) [awaited p r 1])
      ∧ (∀ g, (awaited p r 1).passage ≠ some g)
      ∧ (awaited p r 1).piece.mask.getLsbD 1 = true ∧ -((awaited p r 1).late : Int) ≤ r ∧ r ≤ (awaited p r 1).early)
    ∧ (ListLaw (running 2) ∧ (running 2).tracker.entries = [] ∧ (running 2).tracker.orphans.get 1 = none)
    ∧ (let lost (s : State) : State := { s with travel := { s.travel with lost := true } }
      let far := lost (withEntries (running 2) [awaited p 41 1])
      let held := lost (withOrphan (running 2) ⟨5, some ⟨4, 1⟩, false, false⟩)
      (ListLaw far ∧ far.travel.lost = true ∧ ¬ (awaited p 41 1).remaining ≤ (awaited p 41 1).early)
      ∧ (ListLaw held ∧ held.tracker.entries = []
        ∧ held.tracker.orphans.get 0 = some ⟨5, some ⟨4, 1⟩, false, false⟩)) := by
  refine ⟨?_, ?_, ?_, ?_⟩
  · unfold ListLaw; decide +kernel
  · rintro r (rfl | rfl) <;> refine ⟨?_, by simp [awaited], ?_⟩ <;> first | (unfold ListLaw; decide +kernel) | decide +kernel
  · unfold ListLaw; decide +kernel
  · unfold ListLaw; decide +kernel

/-- The measured length at both ends of the tolerance, 170 and 230 mm. -/
theorem witness_PassageEndSendsPass :
    ∀ n : Nat, n = 170 ∨ n = 230 →
      let e := passing (piece1 1 1#4) n
      let s := withEntries (running 2) [e]
      s.role = some .check ∧ ListLaw s ∧ e ∈ s.tracker.entries ∧ e.passage = some ⟨1#4, 1#4, n, false, false⟩
      ∧ (∀ x ∈ s.tracker.entries, x = e) ∧ (1#4 : LaneSet) = BitVec.ofNat 4 (2 ^ (0 : Lane).val)
      ∧ e.piece.mask &&& ~~~ (1#4) = 0
      ∧ (Image.profile s.image e.piece.profile).identified = true
      ∧ (Image.profile s.image e.piece.profile).nominal ≤ n + (Image.profile s.image e.piece.profile).tolerance
      ∧ n ≤ (Image.profile s.image e.piece.profile).nominal + (Image.profile s.image e.piece.profile).tolerance := by
  rintro n (rfl | rfl) <;> (unfold ListLaw; decide +kernel)

/-- The other clauses: a lane among two of a passage and the last one, of an entry and of a stray, a blocked orphan, a clear
one and none; an unseen set of one lane and the empty one; the lengths 169 and 231, one past the tolerance. -/
theorem witness_PassageEndSendsPass_ends :
    let two : Entry := { passing (piece1 1 3#4) 20 with passage := some ⟨3#4, 3#4, 20, false, false⟩ }
    let one := passing (piece1 1 3#4) 20
    let blocked : Orphan := ⟨70, none, false, false⟩
    let v := Image.profile (running 2).image 1
    (ListLaw (withEntries (running 2) [two]) ∧ (3#4 : LaneSet) ≠ BitVec.ofNat 4 (2 ^ (0 : Lane).val)
      ∧ (3#4 : LaneSet).getLsbD (0 : Lane).val = true)
    ∧ (ListLaw (withEntries (running 3) [one]) ∧ (1#4 : LaneSet) = BitVec.ofNat 4 (2 ^ (0 : Lane).val)
      ∧ one.passage = some ⟨1#4, 1#4, 20, false, false⟩)
    ∧ (ListLaw (withStray (running 3) (strayOn 3#4)) ∧ (withStray (running 3) (strayOn 3#4)).tracker.entries = []
      ∧ (strayOn 3#4).passage.blocked = 3#4 ∧ (strayOn 1#4).passage.blocked = 1#4
      ∧ (running 2).role = some .check ∧ (running 3).role = some .sort)
    ∧ (ListLaw (withOrphan (running 2) blocked) ∧ (withOrphan (running 2) blocked).tracker.orphans.get 0 = some blocked
      ∧ blocked.clear = none ∧ (withOrphan (running 2) blocked).tracker.adopted = []
      ∧ (running 2).tracker.orphans.get 0 = none)
    ∧ (∀ j : Lane, (2#4 : LaneSet).getLsbD j.val = true ↔
      one.piece.mask.getLsbD j.val = true ∧ (1#4 : LaneSet).getLsbD j.val = false ∧ ((running 2).eyes.get j).state = .normal)
    ∧ (∀ j : Lane, (0#4 : LaneSet).getLsbD j.val = true ↔
      one.piece.mask.getLsbD j.val = true ∧ (3#4 : LaneSet).getLsbD j.val = false ∧ ((running 2).eyes.get j).state = .normal)
    ∧ (v.identified = true ∧ 169 + v.tolerance < v.nominal ∧ v.nominal + v.tolerance < 231) := by
  dsimp only [ListLaw]; and_intros <;> decide +kernel

/-- Entries at -60, the last distance that stays, and at -61, with eyes that the third loss makes SUSPECT; a station in
JOINING, and one with no NORMAL eye. -/
theorem witness_WindowsClose :
    let p := piece1 1 15#4
    let at_ (s : State) (r : Int) : State := withEntries s [awaited p r 1]
    let dark : State := { at_ (running 2) (-61) with
      eyes := (running 2).eyes.mapAt fun _ (x : Eye) => { x with losses := 2 } }
    let blind : State := { at_ (running 3) (-61) with
      eyes := (running 3).eyes.mapAt fun _ (x : Eye) => { x with state := .suspect } }
    let batch : State := withEntries (running 3) [awaited { p with flags := { Flags.none with batchClose := true } } (-61) 1]
    ((awaited p (-60) 1).passage = none ∧ ¬ (awaited p (-60) 1).remaining < -((awaited p (-60) 1).late : Int)
      ∧ (awaited p (-61) 1).remaining < -((awaited p (-61) 1).late : Int))
    ∧ (ListLaw dark ∧ dark.tracker.entries = [] ++ awaited p (-61) 1 :: [] ∧ dark.running = true
      ∧ (p.mask.getLsbD 0 = true ∧ (dark.eyes.get 0).state = .normal)
      ∧ min 15 ((dark.eyes.get 0).losses + 1) = Image.byte dark.image 0x009)
    ∧ (ListLaw batch ∧ batch.role = some .sort ∧ batch.running = true ∧ (batch.eyes.get 0).state = .normal)
    ∧ (ListLaw (at_ (joined 2) (-61)) ∧ (at_ (joined 2) (-61)).running = false ∧ (at_ (joined 2) (-61)).role = some .check)
    ∧ (ListLaw blind ∧ (∀ k : Lane, ¬ (p.mask.getLsbD k.val = true ∧ (blind.eyes.get k).state = .normal))
      ∧ blind.role = some .sort) := by
  unfold ListLaw; decide +kernel

/-- Orphans at the grace of 100 mm and past it; blocked, clear, and two at the skew of 50 mm; an adopted passage. -/
theorem witness_StraysAdopted :
    let with_ (os : Quad (Option Orphan)) : State := { running 2 with tracker := { (running 2).tracker with orphans := os } }
    let o (t : Nat) : Orphan := ⟨t, none, false, false⟩
    let c : OrphanClear := ⟨65535, 3⟩
    let a : Adopted := ⟨⟨⟨5, 0⟩, 0, 1#4, 200, none, ⟨false, true, false, false, false, false⟩⟩, ⟨1#4, 1#4, 120, false, false⟩⟩
    let held : State := { running 2 with tracker := { (running 2).tracker with adopted := [] ++ a :: [] } }
    let two := (with_ ⟨some (o 151), some (o 101), none, some (o 100)⟩).tracker.orphans
    (∀ (j : Lane), ∀ x ∈ (with_ ⟨some (o 100), none, none, none⟩).tracker.orphans.get j,
      x.travel ≤ Image.word (running 2).image 0x00C)
    ∧ (Image.word (running 2).image 0x00C < (o 101).travel
      ∧ ∀ j : Lane, j ≠ 0 → (with_ ⟨some (o 101), none, none, none⟩).tracker.orphans.get j = none)
    ∧ (c.measured ≤ 65535 ∧ (running 2).role = some .check)
    ∧ (∀ j : Lane, (3#4 : LaneSet).getLsbD j.val = true ↔ ∃ x ∈ two.get j,
        x.travel ≤ (o 151).travel + Image.byte (running 2).image 0x00E
        ∧ (o 151).travel ≤ x.travel + Image.byte (running 2).image 0x00E)
    ∧ (held.role = some .check ∧ held.tracker.adopted = [] ++ a :: []
      ∧ a.passage.blocked = BitVec.ofNat 4 (2 ^ (0 : Lane).val) ∧ held.tracker.entries = []) := by
  decide +kernel

/-- Orphans past the grace of 100 mm on lanes 2 and 3 with equal travels, the lower first; merged at the skew of 50 mm and
not at 51 mm, one of them blocked, stuck or degraded; and all clear, where the later trailing edge gives the length. -/
theorem witness_StraysAdopted_together :
    let im := (running 2).image
    let blocked : Quad (Option Orphan) :=
      ⟨some ⟨99, none, false, false⟩, some ⟨150, some ⟨40, 110⟩, true, false⟩, some ⟨150, none, false, false⟩,
        some ⟨100, none, false, true⟩⟩
    let clear : Quad (Option Orphan) :=
      ⟨none, some ⟨150, some ⟨40, 110⟩, false, false⟩, none, some ⟨100, some ⟨65, 35⟩, false, false⟩⟩
    let near (x : Orphan) : Prop := x.travel ≤ 150 + Image.byte im 0x00E ∧ 150 ≤ x.travel + Image.byte im 0x00E
    let length (x : Orphan) (c : OrphanClear) : Int := (150 : Int) - x.travel + c.measured
    (Image.word im 0x00C < 150 ∧ ∀ (j : Lane), ∀ x ∈ blocked.get j, x.travel < 150 ∨ (x.travel = 150 ∧ 1 ≤ j))
    ∧ (∀ j : Lane, (14#4 : LaneSet).getLsbD j.val = true ↔ ∃ x ∈ blocked.get j, near x)
    ∧ (∀ j : Lane, (12#4 : LaneSet).getLsbD j.val = true ↔ ∃ x ∈ blocked.get j, near x ∧ x.clear = none)
    ∧ ((∃ j : Lane, ∃ x ∈ blocked.get j, near x ∧ x.stuck = true)
      ∧ (∃ j : Lane, ∃ x ∈ blocked.get j, near x ∧ x.degraded = true) ∧ (12#4 : LaneSet) ≠ 0)
    ∧ (∀ j : Lane, (10#4 : LaneSet).getLsbD j.val = true ↔ ∃ x ∈ clear.get j, near x)
    ∧ (∀ j : Lane, (0#4 : LaneSet).getLsbD j.val = true ↔ ∃ x ∈ clear.get j, near x ∧ x.clear = none)
    ∧ ((∃ j : Lane, ∃ x ∈ clear.get j, ∃ c ∈ x.clear, length x c = 115 ∧ c.since = 35)
      ∧ (∀ (j : Lane), ∀ x ∈ clear.get j, ∀ c ∈ x.clear, length x c ≤ 115 ∧ 35 ≤ c.since)
      ∧ ¬ ∃ j : Lane, ∃ x ∈ clear.get j, x.stuck = true ∨ x.degraded = true)
    ∧ (running 2).role = some .check ∧ (running 3).role = some .sort := by
  decide +kernel

theorem witness_ClampClosedEdge :
    let one := after (running 1) (.clampClosedEdge 1#4)
    let two := after one (.clampClosedEdge 15#4)
    (one.role = some .feed ∧ one.running = true ∧ one.feed.queue.length < 2)
    ∧ (two.role = some .feed ∧ two.running = true ∧ 2 ≤ two.feed.queue.length)
    ∧ (running 2).role ≠ some .feed ∧ (joined 1).running = false := by decide +kernel

theorem witness_SpreaderAndBatchInputs :
    let s := running 1
    let one := after s (.clampClosedEdge 1#4)
    headReady.feed.spreader = true ∧ (s.feed.spreader = false ∧ s.role = some .feed ∧ s.running = true
      ∧ s.feed.handshake = .waiting ∧ s.feed.queue = [])
    ∧ (one.feed.spreader = false ∧ one.role = some .feed ∧ one.running = true ∧ one.feed.handshake = .waiting
      ∧ one.feed.queue ≠ [])
    ∧ ((running 2).feed.spreader = false ∧ (running 2).role ≠ some .feed)
    ∧ (s.onLine = true ∧ (joined 1).onLine = true) := by decide +kernel

theorem witness_TimerExpiries :
    let s := running 1
    s.port.offLineTimer = .stopped ∧ s.feed.releaseTimer = .stopped ∧ s.feed.stuckTimer = .stopped
    ∧ s.sort.bladeTimer = .stopped
    ∧ (after headReady (.decoderEvent true false)).feed.releaseTimer = .running 100 250
    ∧ (after (after headReady (.decoderEvent true false)) .releasePulseExpiry).feed.stuckTimer = .running 500 350
    ∧ ({ s with sort := { s.sort with bladeTimer := .running 100 200 } } : State).sort.bladeTimer = .running 100 200
    ∧ ({ s with port := { s.port with offLine := true, offLineTimer := .running 1000 0 } } : State).port.offLineTimer
      = .running 1000 0 := by decide +kernel

/-- A head that may fall with no own hole, and with one whose HOLE is gone, waits, or is in send. -/
theorem witness_DropMade :
    let p := piece1 7 2#4
    let hole (sent : Bool) : Slot := ⟨.hole 15 600 270 ⟨0, false⟩, 0, sent⟩
    let with_ (frame : FrameState) (q : List Slot) : State := { headReady with
      feed := { headReady.feed with map := [⟨.ownHole, 5, none, 15, 600, 270, false, false⟩] }
      hole := ⟨some ⟨50, 200, 20⟩, frame⟩
      port := { headReady.port with queue := q } }
    let ready (s : State) : Prop := s.role = some .feed ∧ s.feed.handshake = .ready ∧ s.feed.queue = p :: []
      ∧ s.dropTest p = true ∧ s.port.active = true ∧ s.port.queue.length < 8
    (ready headReady ∧ ∀ x ∈ headReady.feed.map, x.kind ≠ .ownHole)
    ∧ (ready (with_ .none []) ∧ ∃ x ∈ (with_ .none []).feed.map, x.kind = .ownHole)
    ∧ (ready (with_ .current [hole false]) ∧ ∀ y ∈ [hole false], y.notice.code = 6 → y.inSend = false)
    ∧ (ready (with_ .current [hole true]) ∧ (∃ y ∈ [hole true], y.notice.code = 6)
      ∧ ∀ y ∈ [hole true], y.notice.code = 6 → y.inSend = true) := by decide +kernel

/-- An own hole whose h is -Gb after an advance of 1 mm, one whose h is then below it, and an abandoned HOLE. -/
theorem witness_BeltMapAdvances_stuck :
    let goes (s : State) : Prop := (s.eyes.get 0).blocked = true ∧ (s.eyes.get 0).state = .suspect
      ∧ Image.word s.image 0x00A < (s.eyes.get 0).blockedRun
    (running 1).role = some .feed ∧ ¬ goes (blockedFor (running 1) 4000) ∧ goes (blockedFor (running 1) 4001) := by
  decide +kernel

theorem witness_BeltMapAdvances :
    let own (h : Int) : Stretch := ⟨.ownHole, 5, none, 15, h, 270, false, false⟩
    let hole (sent : Bool) : Slot := ⟨.hole 15 600 270 ⟨0, false⟩, 0, sent⟩
    let with_ (h : Int) (frame : FrameState) (q : List Slot) : State := { headReady with
      feed := { headReady.feed with map := [own h] }
      hole := ⟨some ⟨50, 200, 20⟩, frame⟩
      port := { headReady.port with queue := q } }
    let gone (q : List Slot) : State := { headReady with
      hole := ⟨none, .abandoned⟩, port := { headReady.port with queue := q } }
    let moved (s : State) : List Stretch := s.feed.map.map fun x => { x with head := max (-32768) (min 32767 (x.head - 1)) }
    (moved (with_ (-49) .current []) = [own (-50)] ∧ ¬ (own (-50)).head + (own (-50)).length < (200 : Int) + 20)
    ∧ (moved (with_ (-50) .none []) = [] ++ own (-51) :: [] ∧ (own (-51)).head + (own (-51)).length < (200 : Int) + 20
      ∧ (with_ (-50) .none []).hole.frame = .none)
    ∧ (with_ (-50) .current [hole false]).hole.frame = .current ∧ (with_ (-50) .current [hole true]).hole.frame = .current
    ∧ ((gone [hole true]).hole.frame = .abandoned ∧ (gone [hole false]).hole.frame = .abandoned
      ∧ ∀ x ∈ (gone []).feed.map, x.kind ≠ .ownHole)
    ∧ headReady.role = some .feed := by decide +kernel

/-- A READY head held up by a piece on the belt, with the patience of 1000 mm one millimetre short of it, and reached: with a
hole to be found, with none, and with a full map. -/
theorem witness_PatienceAsksForHole :
    let p := piece1 7 2#4
    let block (l : Nat) : Stretch := ⟨.piece, 1, none, 15, 10, l, false, false⟩
    let held (n : Nat) (map : List Stretch) (hole : HoleUnit) : State := { headReady with
      feed := { headReady.feed with map := map, patience := n }, hole := hole }
    let waiting (s : State) : Prop := s.feed.queue = p :: [] ∧ s.feed.handshake = .ready ∧ s.control.state = .running
      ∧ s.parked = false ∧ s.control.haltSet = 0 ∧ s.dropTest p = false
    let found (s : State) := holeHead s.image s.feed.map p.mask (50 + 200 + 20)
    let free := held 999 [block 100] ⟨none, .none⟩
    let sent : State := { held 999 [block 100] ⟨none, .abandoned⟩ with
      port := { headReady.port with queue := [⟨.hole 15 600 270 ⟨0, false⟩, 0, true⟩] } }
    let v := Image.profile headReady.image 1
    v.gapBefore + p.nominal + v.gapAfter = 50 + 200 + 20
    ∧ (running 1).feed.queue = [] ∧ headReady.dropTest p = true
    ∧ (waiting (held 998 [block 100] ⟨none, .none⟩) ∧ heldSum 998 1 < Image.word headReady.image 0x01C)
    ∧ (waiting free ∧ Image.word free.image 0x01C = heldSum 999 1 ∧ found free = some 600
      ∧ free.feed.map.length < 24 ∧ free.port.active = true ∧ free.port.queue.length < 8)
    ∧ (waiting (held 999 [block 6000] ⟨none, .none⟩) ∧ found (held 999 [block 6000] ⟨none, .none⟩) = none)
    ∧ (waiting (held 999 (List.replicate 24 (block 100)) ⟨none, .none⟩)
      ∧ found (held 999 (List.replicate 24 (block 100)) ⟨none, .none⟩) = some 600)
    ∧ (waiting sent ∧ sent.hole.frame = .abandoned ∧ (∃ y ∈ sent.port.queue, y.notice.code = 6)
      ∧ ∀ y ∈ sent.port.queue, y.notice.code = 6 → y.inSend = true) := by decide +kernel

/-- DROPs: from no upstream offset, with no lane, of origin 0, stale, past by one millimetre and by none, in a full map. -/
theorem witness_NoticesAtFeed_drops :
    let s := idle 1
    let full := withMap s (List.replicate 24 ⟨.reserved, 2, none, 15#4, 10, 100, false, false⟩)
    let tag : Tag := ⟨1, 4⟩
    let drop (t : Tag) (m : LaneSet) (l age : Nat) (stale : Bool) : Prop :=
      carries (frameOf 1 (.drop t 15 m false l ⟨age, stale⟩)) 1 (.drop t 15 m false l ⟨age, stale⟩)
    (s.reading false ∧ s.onLine = true ∧ s.role = some .feed ∧ 1 ≠ Image.address s.image
      ∧ Image.offsetOf s.image 1 = some 500)
    ∧ (2 ≠ Image.address s.image ∧ Image.offsetOf s.image 2 = some (-500)
      ∧ carries (frameOf 2 (.drop tag 1 15#4 false 200 ⟨0, false⟩)) 2 (.drop tag 1 15#4 false 200 ⟨0, false⟩))
    ∧ (drop tag 0 200 0 false ∧ (0 : LaneSet) &&& Image.lanes s.image = 0)
    ∧ (drop ⟨0, 4⟩ 15 200 0 false ∧ drop tag 15 6001 0 true ∧ (15#4 : LaneSet) &&& Image.lanes s.image ≠ 0)
    ∧ drop tag 15 6000 1023 true
    ∧ (drop tag 15 199 700 false ∧ max (-32768) (min 32767 ((500 : Int) - 700)) + 199 < 0)
    ∧ (drop tag 15 200 700 false ∧ (0 : Int) ≤ max (-32768) (min 32767 (500 - 700)) + 200 ∧ s.feed.map.length < 24)
    ∧ (full.reading false ∧ full.onLine = true ∧ full.role = some .feed ∧ 24 ≤ full.feed.map.length) := by
  dsimp only [carries, isAddress, State.reading]; and_intros <;> decide +kernel

/-- HOLEs at h = 100 with a length of 200: from upstream, with no lane, past the fields, stale; past, void at a
reservation, met by an unconfirmed own hole, free, and in a full map. -/
theorem witness_NoticesAtFeed :
    let s := idle 1
    let at_ (kind : StretchKind) (owner : Nat) (head : Int) : Stretch := ⟨kind, owner, none, 15#4, head, 50, false, false⟩
    let full := withMap s (List.replicate 24 ⟨.piece, 1, none, 15#4, 10, 100, false, false⟩)
    let asked : State := { withMap s [at_ .ownHole 5 301, at_ .reserved 2 120] with
      hole := ⟨some ⟨10, 20, 20⟩, .current⟩
      port := { s.port with queue := [⟨.hole 15 301 50 ⟨0, false⟩, 0, false⟩] } }
    let hole (m : LaneSet) (head l age : Nat) (stale : Bool) : Prop :=
      carries (frameOf 2 (.hole m head l ⟨age, stale⟩)) 2 (.hole m head l ⟨age, stale⟩)
    let meets (y : Stretch) (l : Int) : Prop := y.mask &&& (15#4 &&& Image.lanes s.image) ≠ 0 ∧ y.head ≤ 100 + l
      ∧ (100 : Int) ≤ y.head + y.length
    (s.reading false ∧ s.onLine = true ∧ s.role = some .feed ∧ 2 ≠ Image.address s.image
      ∧ Image.offsetOf s.image 2 = some (-500) ∧ (15#4 : LaneSet) &&& Image.lanes s.image ≠ 0)
    ∧ carries (frameOf 1 (.hole 15 0 0 ⟨0, false⟩)) 1 (.hole 15 0 0 ⟨0, false⟩)
    ∧ (hole 0 100 200 0 false ∧ hole 15 32768 0 0 false ∧ hole 15 0 8047 0 false ∧ hole 15 32767 8046 1023 true)
    ∧ (hole 15 300 199 0 false ∧ max (-32768) (min 32767 ((-500 : Int) + 300 - 0)) + 199 < 0)
    ∧ (hole 15 600 200 0 false ∧ max (-32768) (min 32767 ((-500 : Int) + 600 - 0)) = 100)
    ∧ (meets (at_ .reserved 1 300) 200 ∧ meets (at_ .reserved 1 50) 200
      ∧ ¬ meets (at_ .ownHole 5 301) 200 ∧ ¬ meets (at_ .reserved 1 49) 200)
    ∧ (hole 15 600 201 0 false ∧ meets (at_ .ownHole 5 301) 201 ∧ asked.feed.map.length ≤ 24
      ∧ asked.reading false ∧ asked.onLine = true ∧ asked.role = some .feed
      ∧ ∀ y ∈ asked.port.queue, y.notice.code = 6 → y.inSend = false)
    ∧ (s.feed.map = [] ∧ full.reading false ∧ full.role = some .feed ∧ 24 ≤ full.feed.map.length
      ∧ ∀ y ∈ full.feed.map, y.kind = .piece) := by
  dsimp only [carries, isAddress, State.reading]; and_intros <;> decide +kernel

theorem witness_HoldInputAndSettleExpiry :
    let s := joined 2
    let h := (withPolicy s .lost ⟨false, .halt⟩).occur ⟨.lost, none, none, 0⟩
    (s.control.state = .joining ∧ s.control.settleTimer = .running 250 0 ∧ s.faults.haltKind = none)
    ∧ (h.control.state = .joining ∧ h.control.settleTimer = .running 250 0 ∧ h.faults.haltKind = some .lost
      ∧ isAddress (Image.address h.image) ∧ h.port.active = true ∧ h.port.queue.length < 8 ∧ h.control.queued = none) := by
  dsimp only [isAddress]; decide +kernel

theorem witness_JoinAccepted :
    (configured 3).control.state = .configured ∧ (configured 3).control.departure = false := by decide +kernel

theorem witness_LeaveAccepted :
    let own (s : State) := s.control.haltSet.getLsbD (Image.address s.image)
    let send (s : State) := after (after (after s .mediumBecomesIdle) .sendAttemptStart) .transmitCompletion
    let waits := after (running 1) .stopLine
    let sent := send waits
    let resumed := after sent .resume
    let owing := after waits .resume
    let loss (sent : Bool) : Slot := ⟨.loss ⟨1, 1⟩ 1 false, 0, sent⟩
    let full : State := { sent with
      port := { sent.port with queue := List.replicate 6 (loss false) ++ loss false :: [loss true] } }
    ((joined 1).onLine = true ∧ own (joined 1) = false ∧ (joined 1).control.queued = none ∧ (joined 1).control.owed = none)
    ∧ (waits.onLine = true ∧ own waits = true ∧ waits.control.queued = some .halt)
    ∧ (sent.onLine = true ∧ own sent = true ∧ sent.control.queued = none ∧ sent.control.owed = none
      ∧ sent.port.active = true ∧ sent.port.queue.length < 8)
    ∧ (resumed.onLine = true ∧ own resumed = false ∧ resumed.control.queued = some .resume)
    ∧ (owing.onLine = true ∧ own owing = false ∧ owing.control.queued = some .halt ∧ owing.control.owed = some .resume)
    ∧ (own (after resumed .stopLine) = true ∧ (after resumed .stopLine).control.queued = some .resume
      ∧ (after resumed .stopLine).control.owed = some .halt)
    ∧ (full.onLine = true ∧ own full = true ∧ full.control.queued = none ∧ full.control.owed = none
      ∧ full.port.active = true ∧ full.port.queue.length = 8
      ∧ full.port.queue = List.replicate 6 (loss false) ++ loss false :: [loss true]
      ∧ (loss false).inSend = false ∧ (∀ z ∈ [loss true], z.inSend = true) ∧ 2 < (loss false).notice.code) := by
  decide +kernel

theorem witness_OwnHaltCommands :
    let own (s : State) := s.control.haltSet.getLsbD (Image.address s.image)
    let running_ (s : State) : Prop := s.running = true ∧ isAddress (Image.address s.image) ∧ own s = false
      ∧ s.port.active = true ∧ s.port.queue.length < 8
    let halted_ (s : State) : Prop := s.control.state ≠ .lockout ∧ own s = true ∧ s.faults.haltKind = none
      ∧ s.port.active = true ∧ s.port.queue.length < 8
    let s := running 1
    let halted := after s .stopLine
    let sent := after (after (after halted .mediumBecomesIdle) .sendAttemptStart) .transmitCompletion
    let resumed := after sent .resume
    let owing := after halted .resume
    let again := after resumed .stopLine
    (running_ s ∧ s.control.queued = none) ∧ (running_ resumed ∧ resumed.control.queued = some .resume)
    ∧ (running_ owing ∧ owing.control.queued = some .halt)
    ∧ (halted_ sent ∧ sent.control.queued = none) ∧ (halted_ halted ∧ halted.control.queued = some .halt)
    ∧ (halted_ again ∧ again.control.queued = some .resume) := by
  dsimp only [isAddress]; decide +kernel

theorem witness_RestartFlag :
    let s := withPolicy (idle 2) .peer ⟨true, .note⟩
    exec .stopLine s = .next (after s .stopLine) ∧ Instr.stopLine ≠ .clearRestart
    ∧ ((configured 1).control.state = .configured ∧ (configured 1).control.departure = false)
    ∧ (s.reading false ∧ s.control.state = .running
      ∧ carries (frameOf 5 (.present 2 4 0 true false)) (Image.address s.image) (.present 2 4 0 true false)
      ∧ s.control.haltSet = 0 ∧ (s.faults.policyFor .peer).masked = true ∧ s.port.queue.length < 8) := by
  refine ⟨after_next _ _, ?_⟩
  dsimp only [carries, isAddress, State.reading]; decide +kernel

theorem witness_PortRefusals :
    let halted := after (running 3) .stopLine
    let locked := after (joined 3) (.receivedFrameEnd (frameOf 5 .resume))
    let lockout := after (after (joined 3) .mediumBecomesIdle) (.receivedFrameEnd (frameOf 5 .resume))
    let pendingHalt := (withPolicy (running 3) .lost ⟨false, .halt⟩).occur ⟨.lost, none, none, 0⟩
    let leaving := after halted .leave
    (0x06 : Byte) ∉ commandCodes ∧ State.reset.control.state ≠ .configured ∧ State.reset.onLine = false
    ∧ locked.control.state = .joining ∧ lockout.control.state = .lockout
    ∧ (running 3).control.state ≠ .lockout ∧ (running 3).control.haltSet.getLsbD (Image.address (running 3).image) = false
    ∧ halted.running = true ∧ halted.control.haltSet.getLsbD (Image.address halted.image) = true
    ∧ (pendingHalt.control.haltSet.getLsbD (Image.address pendingHalt.image) = true
      ∧ pendingHalt.faults.pending.getLsbD FaultKind.lost.place.val = true
      ∧ (pendingHalt.faults.policyFor .lost).severity = .halt)
    ∧ (leaving.spi.frozen = false ∧ leaving.control.departure = true)
    ∧ ((running 3).spi.frozen = true ∧ State.reset.spi.frozen = false ∧ State.reset.control.departure = false)
    ∧ ((running 2).onLine = true ∧ (running 2).role ≠ some .sort)
    ∧ ((running 3).role = some .sort ∧ 3 < (4 : Byte).toNat ∧ (3 : Byte).toNat = (3 : StackerNo).val
      ∧ ((running 3).sort.stackers.get 3).stack.count = 0)
    ∧ (encodeTransaction .mediumBecomesIdle = none ∧ Instr.mediumBecomesIdle ≠ .transactionCutShort true
      ∧ (∀ pins, Instr.mediumBecomesIdle ≠ .hardReset pins)
      ∧ (after (running 3) (.transactionCutShort true)).spi.transaction = some 0x03)
    ∧ ((running 3).spi.returned.length ≤ 2)
    ∧ 16 < (17 : Byte).toNat ∧ 64 < (65 : Byte).toNat ∧ 320 < (257 : BitVec 16).toNat + (64 : Byte).toNat := by
  simp only [ne_eq, reduceCtorEq, not_false_eq_true, implies_true, true_and]; decide +kernel

theorem witness_IdleAndSendStart :
    let s := idle 1
    ((running 1).port.active = true ∧ (running 1).port.medium ≠ .sending ∧ (running 1).port.medium ≠ .idle)
    ∧ (State.reset.port.active = false ∧ (sending 1).port.medium = .sending)
    ∧ (s.port.active = true ∧ s.port.medium = .idle ∧ s.port.offLine = false
      ∧ (∃ x rest, s.port.queue = x :: rest) ∧ ∀ y ∈ s.port.queue, y.inSend = false) := by
  refine ⟨by decide +kernel, by decide +kernel, by decide +kernel, by decide +kernel, by decide +kernel, ⟨_, _, rfl⟩, ?_⟩
  decide +kernel

/-- Place 2 of station 5's PRESENT is a recessive identifier bit, place 1 a dominant one. -/
theorem witness_AttemptEndsEarly :
    let x : Slot := ⟨.present 2 4 ((running 2).image.profileSum) true false, 0, true⟩
    let s := sending 2
    let at15 : State := { s with port := { s.port with failures := 15 } }
    let j := after (after (joined 2) .mediumBecomesIdle) .sendAttemptStart
    (∀ y ∈ (idle 2).port.queue, y.inSend = false)
    ∧ s.port.queue.find? (·.inSend) = some x ∧ recessiveIdentifierBit 0x75 x.notice.bytes 2 = true
    ∧ recessiveIdentifierBit 0x75 x.notice.bytes 1 = false ∧ 1 < (frameBits 0x75 x.notice.bytes).length
    ∧ (BitVec.ofNat 8 (x.notice.code * 16 + Image.address s.image) : Byte) = 0x75
    ∧ s.control.state ≠ .joining ∧ s.port.failures < 15 ∧ at15.port.queue.find? (·.inSend) = some x
    ∧ at15.port.failures = 15
    ∧ (j.port.queue.find? (·.inSend) = some x ∧ x.notice.code = 7 ∧ j.control.state = .joining) := by decide +kernel

theorem witness_TransmitCompletion :
    let hole : Notice := .hole 15 600 270 ⟨0, false⟩
    let halting : State := { inSend 1 (.halt 0 none) with
      control := { (inSend 1 (.halt 0 none)).control with queued := some .halt } }
    let leaving : State := { inSend 1 .resume with
      control := { (configured 1).control with departure := true, queued := some .resume } }
    let owing := after { inSend 1 .resume with
      control := { (inSend 1 .resume).control with queued := some .resume } } .stopLine
    (∃ x, (sending 1).port.queue.find? (·.inSend) = some x ∧ x.notice.code = 7)
    ∧ (∃ x, ({ inSend 1 hole with hole := ⟨none, .current⟩ } : State).port.queue.find? (·.inSend) = some x
      ∧ x.notice.code = 6)
    ∧ (∃ x, ({ inSend 1 hole with hole := ⟨none, .abandoned⟩ } : State).port.queue.find? (·.inSend) = some x
      ∧ x.notice.code = 6 ∧ FrameState.abandoned ≠ .current)
    ∧ (∃ x, halting.port.queue.find? (·.inSend) = some x ∧ x.notice.code = 1 ∧ halting.control.owed = none
      ∧ halting.control.departure = false)
    ∧ (∃ x, leaving.port.queue.find? (·.inSend) = some x ∧ x.notice.code = 2 ∧ leaving.control.owed = none
      ∧ leaving.control.departure = true)
    ∧ (∃ x, (after halting .leave).port.queue.find? (·.inSend) = some x ∧ (after halting .stopLine).control.owed = none
      ∧ x.notice.code = 1 ∧ (after (after halting .stopLine) .resume).control.owed = some .resume
      ∧ (after (after halting .stopLine) .resume).port.active = true
      ∧ (after (after halting .stopLine) .resume).port.queue.find? (·.inSend) = some x
      ∧ (after (after halting .stopLine) .resume).port.queue.length ≤ 8)
    ∧ (∃ x, owing.port.queue.find? (·.inSend) = some x ∧ x.notice.code = 2 ∧ owing.control.owed = some .halt
      ∧ owing.control.ownHalt = some ⟨0, none⟩ ∧ owing.port.active = true ∧ owing.port.queue.length ≤ 8) := by
  refine ⟨⟨_, rfl, ?_⟩, ⟨_, rfl, ?_⟩, ⟨_, rfl, ?_⟩, ⟨_, rfl, ?_⟩, ⟨_, rfl, ?_⟩, ⟨⟨.halt 0 none, 0, true⟩, ?_⟩,
    ⟨⟨.resume, 0, true⟩, ?_⟩⟩ <;> decide +kernel

/-- A wrong check; kind codes 0 and 8; sender 0; a RESUME with a data byte. -/
theorem witness_FrameDiscards :
    let s := idle 2
    let bad : List Bool := (frameBits 0x21 []).map fun b => b
    let wrong : List Bool := (stuffFrom true 0 (false :: (coveredBits 0x22 [] ++ bitsOf 16 0))).map (·.1) ++ endRun
    s.reading false ∧ isAddress (Image.address s.image)
    ∧ follow (List.replicate 6 false) = .broken none
    ∧ follow ((frameBits 0x52 [0]).take 12 ++ List.replicate 6 true) = .broken (some 0x52)
    ∧ (follow wrong = .ended ⟨0x22, [], 0⟩ ∧ (0 : BitVec 16) ≠ frameCheck (coveredBits 0x22 []))
    ∧ follow (frameBits 0x05 []) = .ended ⟨0x05, [], frameCheck (coveredBits 0x05 [])⟩
    ∧ follow (frameBits 0x85 []) = .ended ⟨0x85, [], frameCheck (coveredBits 0x85 [])⟩
    ∧ follow (frameBits 0x20 []) = .ended ⟨0x20, [], frameCheck (coveredBits 0x20 [])⟩
    ∧ follow (frameBits 0x22 [0]) = .ended ⟨0x22, [0], frameCheck (coveredBits 0x22 [0])⟩
    ∧ bad = frameBits 0x21 [] := by
  dsimp only [isAddress, State.reading]; decide +kernel

theorem witness_PeerHaltAndResume :
    let s := idle 2
    let halted := after (after s (.receivedFrameEnd (frameOf 1 (.halt 16 none)))) .mediumBecomesIdle
    (s.reading false ∧ s.onLine = true ∧ 1 ≠ Image.address s.image ∧ isAddress (Image.address s.image)
      ∧ carries (frameOf 1 (.halt 16 (some ⟨1, 0⟩))) 1 (.halt 16 (some ⟨1, 0⟩))
      ∧ carries (frameOf 1 (.halt 17 none)) 1 (.halt 17 none))
    ∧ (halted.reading false ∧ halted.onLine = true ∧ halted.control.haltSet = 2
      ∧ carries (frameOf 1 .resume) 1 .resume) := by
  dsimp only [carries, isAddress, State.reading]; decide +kernel

/-- PEER in force with severity NOTE and with severity HALT; the own halt outstanding with its HALT waiting, and with it sent. -/
theorem witness_PeerPresent :
    let s := idle 2
    let h := withPolicy s .peer ⟨false, .halt⟩
    let sum := Image.profileSum s.image
    let came (r n sum : Nat) (a d : Bool) : Prop :=
      carries (frameOf 1 (.present r n sum a d)) 1 (.present r n sum a d)
    let own (s : State) := s.control.haltSet.getLsbD (Image.address s.image)
    let waits := after s .stopLine
    let sent := after (after (after waits .sendAttemptStart) .transmitCompletion) .mediumBecomesIdle
    let ready (s : State) : Prop := s.reading false ∧ s.onLine = true ∧ 1 ≠ Image.address s.image
      ∧ isAddress (Image.address s.image)
    (ready s ∧ own s = false ∧ (s.faults.policyFor .peer).masked = false ∧ 4 = Image.byte s.image 0x002
      ∧ sum = Image.profileSum s.image)
    ∧ (ready h ∧ own h = false) ∧ (ready waits ∧ own waits = true ∧ waits.control.queued ≠ none)
    ∧ (ready sent ∧ own sent = true ∧ sent.control.queued = none ∧ sent.control.owed = none
      ∧ sent.control.ownHalt = some ⟨0, none⟩ ∧ sent.port.queue.length < 8)
    ∧ came 1 4 sum false false ∧ came 3 4 sum false true ∧ came 1 3 sum false true ∧ came 1 4 (sum + 1) false false
    ∧ came 1 4 sum true true ∧ came 0 4 sum false true ∧ came 4 7 0 true false := by
  dsimp only [carries, isAddress, State.reading]; and_intros <;> decide +kernel

theorem witness_OwnAddressFrame :
    let j := after (joined 2) .mediumBecomesIdle
    let s := idle 2
    let own (s : State) := s.control.haltSet.getLsbD (Image.address s.image)
    let waits := after s .stopLine
    let sent := after (after (after waits .sendAttemptStart) .transmitCompletion) .mediumBecomesIdle
    let leaving := after (after s .stopLine) .leave
    (j.reading false ∧ carries (frameOf 5 (.halt 0 none)) (Image.address j.image) (.halt 0 none)
      ∧ j.control.state = .joining)
    ∧ (s.reading false ∧ carries (frameOf 5 (.present 2 4 0 false true)) (Image.address s.image) (.present 2 4 0 false true)
      ∧ s.control.state = .running)
    ∧ (carries (frameOf 5 (.present 2 4 0 true false)) (Image.address s.image) (.present 2 4 0 true false)
      ∧ own s = false ∧ s.port.queue.length < 7 ∧ isAddress (Image.address s.image))
    ∧ (waits.reading false ∧ waits.control.state = .running ∧ own waits = true ∧ waits.control.queued ≠ none
      ∧ waits.port.queue.length < 7)
    ∧ (sent.reading false ∧ sent.control.state = .running ∧ own sent = true ∧ sent.control.queued = none
      ∧ sent.control.owed = none ∧ sent.control.ownHalt = some ⟨0, none⟩ ∧ sent.port.queue.length < 7)
    ∧ (leaving.reading false ∧ carries (frameOf 5 .resume) (Image.address leaving.image) .resume
      ∧ leaving.control.state = .configured) := by
  dsimp only [carries, isAddress, State.reading]; decide +kernel

/-- A DROP so old that its distance is the least that is not late, 500 - 570 = -70; and a LOSS of an entry. -/
theorem witness_NoticesAtTracker :
    let s := idle 2
    let held := withEntries s [awaited (piece1 4 15#4) 10 1]
    (s.reading false ∧ s.onLine = true ∧ 1 ≠ Image.address s.image ∧ s.role = some .check
      ∧ Image.offsetOf s.image 1 = some 500
      ∧ carries (frameOf 1 (.drop ⟨1, 4⟩ 1 15 false 6000 ⟨570, false⟩)) 1 (.drop ⟨1, 4⟩ 1 15 false 6000 ⟨570, false⟩)
      ∧ (15#4 : LaneSet) &&& Image.lanes s.image ≠ 0 ∧ s.tracker.entries = []
      ∧ (∀ k : Lane, s.tracker.orphans.get k = none)
      ∧ (500 : Int) - 570 = -((min 2047 (Image.word s.image 0x014 + (500 * Image.byte s.image 0x010 + 999) / 1000) : Nat) : Int))
    ∧ (held.reading false ∧ held.onLine = true ∧ ListLaw held ∧ held.role = some .check
      ∧ carries (frameOf 2 (.loss ⟨1, 4⟩ 15 true)) 2 (.loss ⟨1, 4⟩ 15 true))
    ∧ ((idle 3).reading false ∧ (idle 3).role = some .sort ∧ ListLaw (idle 3)
      ∧ carries (frameOf 2 (.loss ⟨1, 4⟩ 15 false)) 2 (.loss ⟨1, 4⟩ 15 false))
    ∧ (let sorts := withEntries (idle 3) [awaited (piece1 4 15#4) 10 1]
      sorts.reading false ∧ sorts.onLine = true ∧ 2 ≠ Image.address sorts.image ∧ sorts.role = some .sort ∧ ListLaw sorts
      ∧ (awaited (piece1 4 15#4) 10 1).piece.tag = ⟨1, 4⟩)
    ∧ ((idle 1).reading false ∧ (idle 1).role = some .feed ∧ ListLaw (idle 1))
    ∧ (carries (frameOf 1 (.pass ⟨1, 4⟩ 15 8 ⟨true, true, true, true, true, true⟩ 65535 ⟨1023, true⟩)) 1
        (.pass ⟨1, 4⟩ 15 8 ⟨true, true, true, true, true, true⟩ 65535 ⟨1023, true⟩)
      ∧ (8#4 : LaneSet) &&& Image.lanes s.image ≠ 0 ∧ (0#4 : LaneSet) &&& Image.lanes s.image = 0
      ∧ carries (frameOf 1 (.drop ⟨1, 4⟩ 1 0 false 200 ⟨0, true⟩)) 1 (.drop ⟨1, 4⟩ 1 0 false 200 ⟨0, true⟩)
      ∧ carries (frameOf 1 (.drop ⟨15, 4⟩ 1 1 false 6001 ⟨0, false⟩)) 1 (.drop ⟨15, 4⟩ 1 1 false 6001 ⟨0, false⟩)
      ∧ carries (frameOf 1 (.pass ⟨0, 4⟩ 1 1 .none 200 ⟨0, false⟩)) 1 (.pass ⟨0, 4⟩ 1 1 .none 200 ⟨0, false⟩)
      ∧ carries (frameOf 1 (.pass ⟨1, 4⟩ 1 0 .none 200 ⟨0, false⟩)) 1 (.pass ⟨1, 4⟩ 1 0 .none 200 ⟨0, false⟩)) := by
  dsimp only [carries, isAddress, State.reading, ListLaw]; and_intros <;> decide +kernel

/-- Stale; known and awaited, known and passing; late and at the least distance not late; in a full list; and an orphan
claimed at the early tolerance, blocked, in a full list, and clear. -/
theorem witness_ReceiveOrder :
    let a (n : Byte) (r : Int) (stale : Bool) : Announcement := ⟨piece1 n 1#4, r, 40, 60, stale⟩
    let e := awaited (piece1 1 1#4) 10 1
    let known := withEntries (running 2) ([] ++ e :: [])
    let busy := withEntries (running 2) ([] ++ passing (piece1 1 1#4) 20 :: [])
    let full := withEntries (running 2) ((List.range 32).map fun n => awaited (piece1 (BitVec.ofNat 8 (n + 1)) 1#4) 10 0)
    let o (c : Option OrphanClear) : Orphan := ⟨30, c, false, false⟩
    let claimed (s : State) (c : Option OrphanClear) : State := { s with
      tracker := { s.tracker with orphans := s.tracker.orphans.set 0 (some (o c)) } }
    (a 1 0 true).stale = true
    ∧ (ListLaw known ∧ known.tracker.entries = [] ++ e :: [] ∧ e.piece.tag = (a 1 0 false).piece.tag ∧ e.passage = none)
    ∧ (ListLaw busy ∧ (passing (piece1 1 1#4) 20).passage ≠ none)
    ∧ (ListLaw (running 2) ∧ (∀ k : Lane, (running 2).tracker.orphans.get k = none)
      ∧ (a 1 (-61) false).initial < -((a 1 (-61) false).late : Int)
      ∧ -((a 1 (-60) false).late : Int) ≤ (a 1 (-60) false).initial)
    ∧ (ListLaw full ∧ full.tracker.entries.length = 32 ∧ ∀ x ∈ full.tracker.entries, x.piece.tag ≠ (a 90 0 false).piece.tag)
    ∧ (let s := claimed (running 2) none
      s.tracker.orphans.get 0 = some (o none) ∧ (a 90 10 false).piece.mask.getLsbD 0 = true
      ∧ -((a 90 10 false).late : Int) ≤ (a 90 10 false).initial + (o none).travel
      ∧ (a 90 10 false).initial + (o none).travel = (a 90 10 false).early
      ∧ ∀ j : Lane, j ≠ 0 → s.tracker.orphans.get j = none)
    ∧ (claimed full none).tracker.orphans.get 0 = some (o none)
    ∧ (claimed (running 2) (some ⟨65535, 3⟩)).tracker.orphans.get 0 = some (o (some ⟨65535, 3⟩)) := by
  unfold ListLaw; decide +kernel

/-- Chapter 6.8, a piece that outruns its notice: the orphans of lanes 2, 3, 1 and 4 at travels 1835, 1825, 1813 and 1805
are claimed together, the first in lane 2; and the delayed variant, all clear, with measured length 2420 and least
travel 50. -/
theorem witness_ReceiveOrder_together :
    let im := Image.write (imageFor 2) 0x00E [60]
    let blocked : Quad (Option Orphan) := ⟨some ⟨1813, none, false, false⟩, some ⟨1835, none, false, false⟩,
      some ⟨1825, none, false, false⟩, some ⟨1805, none, false, false⟩⟩
    let clear : Quad (Option Orphan) :=
      ⟨some ⟨2448, some ⟨2390, 58⟩, false, false⟩, some ⟨2470, some ⟨2398, 72⟩, false, false⟩,
        some ⟨2460, some ⟨2395, 65⟩, false, false⟩, some ⟨2440, some ⟨2390, 50⟩, false, false⟩⟩
    let a (r : Int) : Announcement := ⟨⟨⟨1, 52⟩, 3, 15#4, 2400, some 2400, Flags.none⟩, r, 63, 88, false⟩
    let station (os : Quad (Option Orphan)) : State := { running 2 with
      spi := { (running 2).spi with image := im }, tracker := { (running 2).tracker with orphans := os } }
    let first (t : Nat) (r : Int) : Prop := -(88 : Int) ≤ r + t ∧ r + t ≤ 63
    let near (t : Nat) (x : Orphan) : Prop := x.travel ≤ t + Image.byte im 0x00E ∧ t ≤ x.travel + Image.byte im 0x00E
    (ListLaw (station blocked) ∧ (station blocked).tracker.entries = [] ∧ first 1835 (-1820)
      ∧ (∀ (j : Lane), ∀ x ∈ blocked.get j, x.travel < 1835 ∨ (x.travel = 1835 ∧ 1 ≤ j))
      ∧ (∀ j : Lane, (15#4 : LaneSet).getLsbD j.val = true ↔ ∃ x ∈ blocked.get j, near 1835 x ∧ x.clear = none))
    ∧ (ListLaw (station clear) ∧ first 2470 (-2500)
      ∧ (∀ (j : Lane), ∀ x ∈ clear.get j, near 2470 x ∧ x.clear ≠ none ∧ (x.travel < 2470 ∨ (x.travel = 2470 ∧ 1 ≤ j)))
      ∧ (∃ j : Lane, ∃ x ∈ clear.get j, ∃ c ∈ x.clear, (2470 : Int) - x.travel + c.measured = 2420 ∧ c.since = 50)
      ∧ (∀ (j : Lane), ∀ x ∈ clear.get j, ∀ c ∈ x.clear, (2470 : Int) - x.travel + c.measured ≤ 2420 ∧ 50 ≤ c.since))
    ∧ ((station blocked).receiveOrder (a (-1820))).tracker.entries.map (·.passage)
      = [some ⟨15#4, 15#4, 1835, false, false⟩]
    ∧ ((station clear).receiveOrder (a (-2500))).port.queue.take 1
      = [⟨.pass ⟨1, 52⟩ 3 15#4 Flags.none 2420 ⟨0, false⟩, 50, false⟩] := by
  dsimp only [ListLaw]; and_intros <;> decide +kernel

theorem witness_AddFrame :
    let pass : Slot := ⟨.pass ⟨1, 42⟩ 1 1 .none 0 ⟨0, false⟩, 0, false⟩
    let hole : Slot := ⟨.hole 15 600 270 ⟨0, false⟩, 0, false⟩
    let holding (l : List Slot) : State := { idle 1 with port := { (idle 1).port with queue := l }, hole := ⟨none, .current⟩ }
    let full := holding (List.replicate 7 pass ++ pass :: [])
    let fullOfHole := holding (List.replicate 7 pass ++ hole :: [])
    ((idle 1).port.active = true ∧ (idle 1).port.queue.length < 8)
    ∧ (full.port.active = true ∧ full.port.queue.length = 8 ∧ full.port.queue = List.replicate 7 pass ++ pass :: []
      ∧ pass.inSend = false ∧ Notice.resume.code < pass.notice.code ∧ pass.notice.code ≠ 6
      ∧ pass.notice.code ≤ pass.notice.code)
    ∧ (fullOfHole.port.queue.length = 8 ∧ fullOfHole.port.queue = List.replicate 7 pass ++ hole :: []
      ∧ Notice.resume.code < hole.notice.code ∧ hole.notice.code = 6 ∧ fullOfHole.hole.frame = .current) := by
  decide +kernel

theorem witness_Occurrences :
    let s := running 3
    let h := withPolicy s .lost ⟨false, .halt⟩
    ((withPolicy State.reset .lost ⟨true, .note⟩).faults.policyFor .lost).masked = true
    ∧ ((State.reset.faults.policyFor .lost).masked = false ∧ State.reset.faults.first = none
      ∧ (State.reset.faults.take ⟨.lost, none, none, 0⟩).first = some ⟨.lost, none, none, 0⟩)
    ∧ ((s.faults.policyFor .lost).masked = false ∧ (s.faults.policyFor .lost).severity = .note)
    ∧ ((s.faults.policyFor .encoder).masked = false ∧ (s.faults.policyFor .encoder).severity = .hold)
    ∧ ((h.faults.policyFor .lost).severity = .halt ∧ h.running = true
      ∧ h.control.haltSet.getLsbD (Image.address h.image) = false ∧ h.port.active = true ∧ h.port.queue.length < 8
      ∧ h.control.queued = none)
    ∧ ((after h .stopLine).control.haltSet.getLsbD (Image.address h.image) = true
      ∧ ((after h .stopLine).faults.policyFor .lost).severity = .halt)
    ∧ (withPolicy (joined 3) .lost ⟨false, .halt⟩).running = false := by decide +kernel

/-- The set that holds the record's kind, and one that does not. -/
theorem witness_AckFaults :
    let s := after (running 1) .spreaderReadyRising
    s.faults.first.map (·.kind.place.val) = some 10 ∧ (0x0400#16).getLsbD 10 = true ∧ (0xFBFF#16).getLsbD 10 = false := by
  decide +kernel

/-- A piece at a station that is parked, of an impossible fold, of a full pre-stack, of another profile in it, and of its
stacker; the gap at 200 mm and at 199 mm; 14 and 15 actions for two, 15 and 16 for one. -/
theorem witness_SortDecision :
    let im := imageFor 3
    let q (l : Nat) : SortPiece := ⟨{ piece1 1 15#4 with measured := some l }, true, false, 0⟩
    let u (k : Stacker) (gap n : Nat) : SortUnit := { (running 3).sort with
      stackers := (running 3).sort.stackers.set 0 k, entryGap := gap, actions := List.replicate n ⟨.setRoute .runout, 1⟩ }
    let pre (n p : Nat) : Stacker := ⟨true, .empty, ⟨n, some p, some ⟨1, 1⟩, some ⟨1, 1⟩, false, false⟩, false⟩
    let v := Image.profile im 1
    let late (a : Bool) : Prop := a = false ∧ (q 200).piece.flags.stray = false ∧ v.identified = true
      ∧ v.stackClass = .stacker 0 ∧ ¬ Image.byte im 0x0F8 ≤ (0 : StackerNo).val
      ∧ (q 200).piece.flags.short = false ∧ (q 200).piece.flags.long = false
    let f (l : Nat) := foldArithmetic im [] v.fold l 0
    let found (x : SortUnit) := x.destination im false (q 200)
    late false ∧ (f 5802).firings = none ∧ (f 5800).firings = some [0]
    ∧ (3 ≤ (pre 3 1).pre.count ∧ (pre 3 1).discharging = true)
    ∧ ((pre 1 2).discharging = true ∧ (pre 1 2).pre.count = 1 ∧ (Image.profile im 2).target = 2
      ∧ (pre 1 2).batchOwed = false ∧ (pre 1 2).pre.profile ≠ some (q 200).piece.profile)
    ∧ ((found (u .cleared 200 14)).dest = .stacker 0 ∧ (u .cleared 200 14).lastRoute = .runout)
    ∧ Image.word im 0x102 = 200
    ∧ ((found (u .cleared 200 14)).firings = [2800] ∧ (u .cleared 200 15).actions.length = 15)
    ∧ ((found { u .cleared 0 15 with lastRoute := .stacker 0 }).dest = .stacker 0)
    ∧ (found (u (pre 3 1) 0 16)).dest = .runout
    ∧ ((running 3).control.state = .running ∧ (running 3).role = some .sort ∧ (joined 3).control.state = .joining)
    ∧ ((running 2).role ≠ some .sort ∧ ¬ ((configured 3).control.state = .joining ∨ (configured 3).control.state = .running))
    := by decide +kernel

theorem witness_DischargeDone :
    ((running 3).sort.stackers.get 0).discharging = false
    ∧ ((discharging 1 true).onLine = true ∧ (discharging 1 true).role = some .sort
      ∧ ((discharging 1 true).sort.stackers.get 0).discharging = true
      ∧ ((discharging 1 true).sort.stackers.get 0).batchOwed = true)
    ∧ ((discharging 3 false).sort.stackers.get 0).batchOwed = false
    ∧ (Image.profile (discharging 3 false).image 1).target = 3
    ∧ ((discharging 2 false).sort.stackers.get 0).pre.count = 2 := by decide +kernel

/-- A stacker collecting the piece's profile, another, and nothing; discharging with room and full; and CLOSE STACK with 15
and 16 records waiting. -/
theorem witness_StackersCountAndClose :
    let k (n : Nat) (owed : Bool) := (discharging n owed).sort.stackers.get 0
    (((running 3).sort.stackers.get 0).discharging = false ∧ ((running 3).sort.stackers.get 0).stack.count = 0)
    ∧ (((collecting 0).sort.stackers.get 3).discharging = false ∧ ((collecting 0).sort.stackers.get 3).stack.count ≠ 0
      ∧ ((collecting 0).sort.stackers.get 3).stack.profile ≠ some 2)
    ∧ ((k 2 false).discharging = true ∧ (k 2 false).pre.profile = some 1 ∧ (k 2 false).batchOwed = false
      ∧ (Image.profile (running 3).image 1).target = 3 ∧ 3 ≤ (k 3 false).pre.count)
    ∧ ∀ n, n = 15 ∨ n = 16 →
      (collecting n).onLine = true ∧ (collecting n).role = some .sort ∧ (3 : Byte).toNat = (3 : StackerNo).val
      ∧ ((collecting n).sort.stackers.get 3).discharging = false ∧ ((collecting n).sort.stackers.get 3).stack.count ≠ 0
      ∧ (collecting n).sort.tally.length = n
      ∧ exec (.closeStack 3) (collecting n) = .next (after (collecting n) (.closeStack 3)) := by
  refine ⟨by decide +kernel, by decide +kernel, by decide +kernel, ?_⟩
  rintro n (rfl | rfl) <;> refine ⟨?_, ?_, ?_, ?_, ?_, ?_, after_next _ _⟩ <;> decide +kernel

/-- A lost batch close: a class at the stacker count, a collecting stack with pieces and without, a discharging stacker with a
pre-stack and without. -/
theorem witness_RunoutCount_lostBatch :
    let im := (running 3).image
    let high := Image.write im 0x0F8 [1]
    let v := Image.profile im 1
    let pieces : SortUnit := { (running 3).sort with
      stackers := (running 3).sort.stackers.set 0 ⟨false, ⟨1, some 1, some ⟨1, 1⟩, some ⟨1, 1⟩, false, false⟩, .empty, false⟩ }
    (v.identified = true ∧ v.stackClass = .stacker 0 ∧ (0 : StackerNo).val < Image.byte im 0x0F8)
    ∧ ((Image.profile im 0).identified = false ∧ (Image.profile high 2).stackClass = .stacker 1
      ∧ Image.byte high 0x0F8 ≤ (1 : StackerNo).val)
    ∧ ((pieces.stackers.get 0).discharging = false ∧ (pieces.stackers.get 0).stack.count ≠ 0)
    ∧ (((running 3).sort.stackers.get 0).discharging = false ∧ ((running 3).sort.stackers.get 0).stack.count = 0)
    ∧ (((discharging 1 false).sort.stackers.get 0).discharging = true
      ∧ ((discharging 1 false).sort.stackers.get 0).pre.count ≠ 0)
    ∧ (((discharging 0 false).sort.stackers.get 0).discharging = true
      ∧ ((discharging 0 false).sort.stackers.get 0).pre.count = 0)
    ∧ ((running 3).onLine = true ∧ (running 3).role = some .sort) := by decide +kernel

theorem witness_RunoutCount :
    (running 3).role = some .sort ∧ (running 3).sort.runout ≤ 65535
    ∧ exec (.hardReset Pins.inactive) (running 3) = .next (after (running 3) (.hardReset Pins.inactive))
    ∧ exec .leave (running 3) = .next (after (running 3) .leave) := by
  refine ⟨by decide +kernel, by decide +kernel, after_next _ _, after_next _ _⟩

theorem witness_OutputLines :
    headReady.dropTest (piece1 7 2#4) = true ∧ headReady.role = some .feed ∧ (joined 1).running = false
    ∧ ((withPolicy State.reset .lost ⟨true, .note⟩).faults.policyFor .lost).masked = true := by decide +kernel

theorem witness_ReadReports :
    (∀ k : FaultKind, State.reset.faults.pending.getLsbD k.place.val = false) ∧ (running 1).role = some .feed ∧ (running 2).role ≠ some .feed ∧ (running 2).role ≠ some .sort := by
  and_intros
  · rintro ⟨⟩ <;> rfl
  all_goals decide +kernel

theorem witness_ReadTallyAndImage :
    (running 3).role = some .sort ∧ (running 1).role = some .feed ∧ (running 2).role = some .check
    ∧ 1 ≤ (1 : Byte).toNat ∧ (16 : Byte).toNat ≤ 16 ∧ (64 : Byte).toNat ≤ 64
    ∧ (256 : BitVec 16).toNat + (64 : Byte).toNat ≤ 320 ∧ (319 : BitVec 16).toNat + (1 : Byte).toNat ≤ 320
    ∧ (running 3).spi.image.length = 320 := by decide +kernel

theorem witness_WriteConfigAndValidate :
    let s := configured 2
    let bad : State := { s with spi := { s.spi with image := Image.write s.image 0 [0] } }
    (s.spi.frozen = false ∧ s.control.departure = false ∧ s.spi.image.length = 320)
    ∧ ([0xAA] : List Byte).length = 1 ∧ (List.replicate 64 (0 : Byte)).length = 64
    ∧ (256 : BitVec 16).toNat + 64 ≤ 320 ∧ Image.firstFailure s.image = none
    ∧ Image.firstFailure bad.image = some 0x13E
    ∧ ((bad.image.take 0x13E).map BitVec.toNat).sum % 65536 ≠ Image.word bad.image 0x13E := by decide +kernel

/-- Images whose sum is right: every field passing, and the first failure at a station field, the home lane, a listen
address used twice, a negative offset at a CHECK image, a used profile, a sort field and a policy byte. -/
theorem witness_WriteConfigAndValidate_fields :
    let first (role : Byte) (o : Nat) (data : List Byte) : Option Nat :=
      let im := Image.write (imageFor role) o data
      let summed := Image.write im 0x13E (wordBytes (Image.sum im 0 0x13E))
      if ((summed.take 0x13E).map BitVec.toNat).sum % 65536 = Image.word summed 0x13E then Image.firstFailure summed
      else some 0
    first 1 0 [5] = none
    ∧ first 2 0x001 [4] = some 0x001 ∧ first 2 0x009 [16] = some 0x009
    ∧ first 1 0x011 [5] = some 0x011 ∧ first 2 0x011 [5] = none
    ∧ first 2 0x023 [1] = some 0x023 ∧ first 2 0x024 [0xFF, 0xFF] = some 0x024 ∧ first 1 0x024 [0xFF, 0xFF] = none
    ∧ first 2 0x044 [0x17, 0x71] = some 0x044 ∧ first 2 0x04F [64] = some 0x04F ∧ first 2 0x05C [0, 0, 0xFF] = none
    ∧ first 2 0x0F8 [5] = some 0x0F8 ∧ first 2 0x102 [4, 0] = some 0x102
    ∧ first 2 0x12E [0x83] = none ∧ first 2 0x13D [0x40] = some 0x13D := by decide +kernel

theorem witness_SequenceCounter :
    exec (.hardReset Pins.inactive) (running 1) = .next (after (running 1) (.hardReset Pins.inactive))
    ∧ exec .leave (running 1) = .next (after (running 1) .leave) ∧ ¬ mayDraw .leave := by
  refine ⟨after_next _ _, after_next _ _, by simp [mayDraw]⟩

theorem witness_StationMovesAndImage :
    Standing (running 1) ∧ exec .leave (running 1) = .next (after (running 1) .leave)
    ∧ (after (running 1) .leave).control.state ≠ (running 1).control.state
    ∧ (∀ pins, Instr.leave ≠ .hardReset pins) := by
  refine ⟨by unfold Standing; decide +kernel, after_next _ _, by decide +kernel, by simp⟩

theorem witness_PendingStaysUntilAcknowledged :
    let s := after (running 1) .spreaderReadyRising
    exec .leave s = .next (after s .leave) ∧ (∀ kinds, Instr.leave ≠ .ackFaults kinds)
    ∧ s.faults.isPending .feed = true ∧ (∀ j : Fin 16, s.faults.counts[j] ≤ 255) := by
  refine ⟨after_next _ _, by simp, by decide +kernel, by decide +kernel⟩

/-- A FEED station with a head ready and a decoder event waiting meets every law's premises, and its step drops the
head. -/
theorem witness_laws_at_a_feed_station :
    let s := { headReady with pending := [.decoderEvent true false] }
    Standing s ∧ HaltLaw s ∧ PortLaw s ∧ HoleLaw s ∧ Capacities s ∧ StackerLaw s ∧ ActionLaw s ∧ ListLaw s ∧ AtRest s
    ∧ step s = .next (after { s with pending := [] } (.decoderEvent true false)) := by
  unfold Standing HaltLaw PortLaw HoleLaw Capacities StackerLaw ActionLaw ListLaw AtRest
  refine ⟨?_, ?_, ?_, ?_, ?_, ?_, ?_, ?_, ?_, by simp only [step]; exact after_next _ _⟩ <;> decide +kernel

/-- A SORT station with a stacker discharging and its discharge-done waiting meets the premises too. -/
theorem witness_laws_at_a_sort_station :
    let s := { discharging 2 false with pending := [.dischargeDone 0] }
    Standing s ∧ HaltLaw s ∧ PortLaw s ∧ HoleLaw s ∧ Capacities s ∧ StackerLaw s ∧ ActionLaw s ∧ ListLaw s ∧ AtRest s
    ∧ step s = .next (after { s with pending := [] } (.dischargeDone 0)) := by
  unfold Standing HaltLaw PortLaw HoleLaw Capacities StackerLaw ActionLaw ListLaw AtRest
  refine ⟨?_, ?_, ?_, ?_, ?_, ?_, ?_, ?_, ?_, by simp only [step]; exact after_next _ _⟩ <;> decide +kernel

theorem witness_FrameRoundTrip : ([0, 0, 0, 0, 0, 0, 0, 0] : List Byte).length ≤ 8 ∧ ([] : List Byte).length ≤ 8 := by
  decide

theorem witness_BytesRoundTrip :
    ((Notice.drop ⟨2, 31⟩ 15 15 true 65535 ⟨1023, true⟩).fits ∧ (Notice.present 255 7 65535 true true).fits
      ∧ (Notice.hole 1 65535 0 ⟨0, false⟩).fits ∧ Notice.resume.fits
      ∧ (Notice.halt 16 none).fits ∧ (Notice.halt 16 (some ⟨15, 0⟩)).fits ∧ (Notice.loss ⟨1, 2⟩ 15 true).fits
      ∧ (Notice.pass ⟨1, 2⟩ 15 15 ⟨true, true, true, true, true, true⟩ 65535 ⟨1023, true⟩).fits)
    ∧ ((Instr.writeConfig 0x0038 [0xAA]).wellFormed = true
      ∧ encodeTransaction (.writeConfig 0x0038 [0xAA]) = some [0x10, 0x00, 0x38, 1, 0xAA]
      ∧ Instr.writeConfig 0x0038 [0xAA] ≠ .transactionCutShort false) := by
  refine ⟨by simp [Notice.fits], by decide⟩

end Sys2Proof.Tests
end

section
/-! PROOFS. The line-stop, attention and clamp-enable outputs, and the status byte that shows them (R64, R123, R178,
R181). -/

namespace Sys2Proof.Machine

/-! ### The output lines -/

theorem State.lineStop_iff (s : State) : s.lineStop = true ↔ s.control.haltSet ≠ 0 := by
  simp [State.lineStop, State.noHalt]

/-- A halt holds off the drop test by its first condition (R133). -/
theorem State.lineStop_of_dropTest {s : State} {p : Piece} (h : s.dropTest p = true) : s.lineStop = false := by
  simp only [State.dropTest, State.lineAllows, Bool.and_eq_true] at h
  obtain ⟨⟨⟨⟨-, hhalt⟩, -⟩, -⟩, -⟩ := h
  simp [State.lineStop, hhalt]

theorem State.attention_iff (s : State) :
    s.attention = true ↔ s.control.state = .lockout ∨ s.faults.pending ≠ 0 ∨ s.tallyQueue ≠ [] := by
  simp [State.attention, or_assoc]

theorem State.tallyQueue_of_sort {s : State} (h : s.role = some .sort) : s.tallyQueue = s.sort.tally := by
  unfold State.tallyQueue; rw [h]

theorem State.tallyQueue_of_feed_or_check {s : State} (h : s.role = some .feed ∨ s.role = some .check) :
    s.tallyQueue = [] := by
  unfold State.tallyQueue
  rcases h with h | h <;> rw [h]

theorem State.clampEnable_iff {s : State} (h : s.role = some .feed) :
    s.clampEnable = true ↔ s.parked = false ∧ s.feed.queue.length < 2 := by
  unfold State.clampEnable; rw [h]; simp [Config.feedCapacity]

theorem State.parked_of_not_running {s : State} (h : s.running = false) : s.parked = true := by
  simp [State.parked, h]

theorem State.clampEnable_of_parked {s : State} (h : s.parked = true) : s.clampEnable = false := by
  simp [State.clampEnable, h]

/-! ### The status byte (R181) -/

/-- Bits 0 to 2 hold the state's code, so each of the four bits above them is the flag of its own weight. -/
theorem StationState.code_flags_bits (x : StationState) (p l a d : Bool) :
    let b : Byte := BitVec.ofNat 8 (x.code + 8 * p.toNat + 16 * l.toNat + 32 * a.toNat + 64 * d.toNat)
    b.getLsbD 5 = a ∧ b.getLsbD 4 = l ∧ b.getLsbD 3 = p ∧ b.getLsbD 6 = d := by
  cases x <;> revert p l a d <;> decide

theorem State.statusByte_bits (s : State) :
    s.statusByte.getLsbD 5 = s.attention ∧ s.statusByte.getLsbD 4 = s.lineStop
    ∧ s.statusByte.getLsbD 3 = s.parked ∧ s.statusByte.getLsbD 6 = s.control.departure :=
  s.control.state.code_flags_bits s.parked s.lineStop s.attention s.control.departure

/-! ### A masked occurrence (R173) -/

/-- Of a masked kind the fault unit takes the count alone (R172, R173). -/
theorem FaultUnit.take_of_masked {u : FaultUnit} {o : Occurrence} (h : (u.policyFor o.kind).masked = true) :
    u.take o = { u with counts := u.counts.set o.kind.place (min 255 (u.counts[o.kind.place] + 1)) } := by
  simp [FaultUnit.take, h]

theorem FaultUnit.take_pending_of_masked {u : FaultUnit} {o : Occurrence}
    (h : (u.policyFor o.kind).masked = true) : (u.take o).pending = u.pending := by
  rw [FaultUnit.take_of_masked h]

/-- Settles O44: each output line by its own rule, and the bits of the status byte. -/
theorem outputLines : Obligations.OutputLines := by
  unfold Obligations.OutputLines
  refine ⟨fun s => ?_, fun u o => FaultUnit.take_pending_of_masked⟩
  obtain ⟨battention, blineStop, bparked, bdeparture⟩ := s.statusByte_bits
  exact ⟨s.lineStop_iff, fun p => State.lineStop_of_dropTest, s.attention_iff, State.tallyQueue_of_sort,
    State.tallyQueue_of_feed_or_check, battention, blineStop, bparked, bdeparture, State.clampEnable_iff,
    fun h => ⟨State.parked_of_not_running h, State.clampEnable_of_parked (State.parked_of_not_running h)⟩⟩

end Sys2Proof.Machine
end

section
/-! PROOFS. The restart flag (R59): which operations leave it as it was, and how a PRESENT carries it. -/

namespace Sys2Proof.Machine

/-! ### Operations that leave the restart flag as it was

`Quiet` and `Within` say it for the shared operations and for the role blocks' work; the operations of the travel unit,
the line port and station control follow from these. -/

@[simp] theorem followParkBegin_restartFlag (b s : State) :
    (followParkBegin b s).control.restartFlag = s.control.restartFlag := (followParkBegin_quiet b s).restartFlag

@[simp] theorem reviewDrop_restartFlag (b s : State) :
    (reviewDrop b s).control.restartFlag = s.control.restartFlag := (reviewDrop_within b s).restartFlag

namespace State

variable (s : State)

@[simp] theorem occur_restartFlag (o : Occurrence) : (s.occur o).control.restartFlag = s.control.restartFlag :=
  (s.occur_quiet o).restartFlag

@[simp] theorem add_restartFlag (n : Notice) (age : Nat) :
    (s.add n age).control.restartFlag = s.control.restartFlag := (s.add_quiet n age).restartFlag

@[simp] theorem raiseOwnHalt_restartFlag (r : Nat) (t : Option Tag) :
    (s.raiseOwnHalt r t).control.restartFlag = s.control.restartFlag := (s.raiseOwnHalt_quiet r t).restartFlag

@[simp] theorem endOwnHalt_restartFlag : s.endOwnHalt.control.restartFlag = s.control.restartFlag :=
  s.endOwnHalt_quiet.restartFlag

@[simp] theorem haltAtEntry_restartFlag : s.haltAtEntry.control.restartFlag = s.control.restartFlag :=
  s.haltAtEntry_quiet.restartFlag

@[simp] theorem leaveHalt_restartFlag : s.leaveHalt.control.restartFlag = s.control.restartFlag :=
  s.leaveHalt_quiet.restartFlag

@[simp] theorem defend_restartFlag (i : Nat) (n : Notice) :
    (s.defend i n).control.restartFlag = s.control.restartFlag := (s.defend_quiet i n).restartFlag

@[simp] theorem evalDrop_restartFlag : s.evalDrop.control.restartFlag = s.control.restartFlag :=
  s.evalDrop_within.restartFlag

@[simp] theorem travelAdvance_restartFlag (d : Int) :
    (s.travelAdvance d).control.restartFlag = s.control.restartFlag := (s.travelAdvance_within d).restartFlag

@[simp] theorem takeLevel_restartFlag (k : Lane) : (s.takeLevel k).control.restartFlag = s.control.restartFlag :=
  (s.takeLevel_within k).restartFlag

@[simp] theorem withSort_restartFlag (r : SortUnit × List Occurrence) :
    (s.withSort r).control.restartFlag = s.control.restartFlag := (s.withSort_within r).restartFlag

@[simp] theorem holeCompleted_restartFlag : s.holeCompleted.control.restartFlag = s.control.restartFlag :=
  s.holeCompleted_within.restartFlag

/-! #### The travel unit and the feed unit -/

@[simp] theorem encoderReturns_restartFlag : s.encoderReturns.control.restartFlag = s.control.restartFlag := by
  simp [encoderReturns]

@[simp] theorem accumulate_restartFlag (forward : Bool) :
    (s.accumulate forward).control.restartFlag = s.control.restartFlag := by
  unfold accumulate; simp only []; split <;> simp

@[simp] theorem countOnLine_restartFlag (forward : Bool) :
    (s.countOnLine forward).control.restartFlag = s.control.restartFlag := by
  unfold countOnLine; simp only []; split_ifs <;> simp

@[simp] theorem takeCount_restartFlag (forward : Bool) :
    (s.takeCount forward).control.restartFlag = s.control.restartFlag := by
  unfold takeCount; simp only []; split_ifs <;> simp

@[simp] theorem encoderLost_restartFlag : s.encoderLost.control.restartFlag = s.control.restartFlag := by
  simp [encoderLost]

@[simp] theorem createRecord_restartFlag (p : Nat) :
    (s.createRecord p).control.restartFlag = s.control.restartFlag := rfl

@[simp] theorem presentHead_restartFlag : s.presentHead.control.restartFlag = s.control.restartFlag := by
  unfold presentHead; simp only []; split <;> simp

/-! #### Station control -/

@[simp] theorem lockOut_restartFlag (cause : LockoutCause) :
    (s.lockOut cause).control.restartFlag = s.control.restartFlag := rfl

@[simp] theorem joinLine_restartFlag : s.joinLine.control.restartFlag = s.control.restartFlag := by
  simp [joinLine]

@[simp] theorem leaveLine_restartFlag : s.leaveLine.control.restartFlag = s.control.restartFlag := by
  unfold leaveLine; simp only []; split <;> simp

@[simp] theorem takeOwnAddress_restartFlag (i : Nat) (n : Notice) :
    (s.takeOwnAddress i n).control.restartFlag = s.control.restartFlag := by
  unfold takeOwnAddress; split <;> simp

@[simp] theorem endDeparture_restartFlag : s.endDeparture.control.restartFlag = s.control.restartFlag := by
  unfold endDeparture; split <;> simp

@[simp] theorem announcementSent_restartFlag :
    s.announcementSent.control.restartFlag = s.control.restartFlag := by
  unfold announcementSent; split <;> simp

/-! #### The line port -/

@[simp] theorem sendFailed_restartFlag (x : Slot) :
    (s.sendFailed x).control.restartFlag = s.control.restartFlag := by
  have htake (u : State) : u.takeClash.control.restartFlag = u.control.restartFlag := by
    unfold takeClash; split <;> simp
  unfold sendFailed goOffLine; simp only []; split_ifs <;> simp [htake]

@[simp] theorem takeCompletion_restartFlag (n : Notice) :
    (s.takeCompletion n).control.restartFlag = s.control.restartFlag := by
  unfold takeCompletion; split <;> simp

@[simp] theorem discardFault_restartFlag (failed : Bool) (c i : Nat) :
    (s.discardFault failed c i).control.restartFlag = s.control.restartFlag := by
  unfold discardFault; split <;> simp

@[simp] theorem abandon_restartFlag (failed : Bool) (i : Option Byte) :
    (s.abandon failed i).control.restartFlag = s.control.restartFlag := by
  simp [abandon]

theorem handDrop_within (a i : Nat) (o : Int) (t : Tag) (p : Nat) (m : LaneSet) (b : Bool) (l : Nat) (st : Stamp) :
    Within s (s.handDrop a i o t p m b l st) := by
  unfold handDrop
  split
  · exact s.feedDrop_within a i o t p m l st
  · exact s.trackDrop_within i o t p m b l st
  · exact s.trackDrop_within i o t p m b l st
  · exact Within.refl s

/-- What a notice from another address leaves as it was, whatever its kind (R49). -/
theorem handNotice_within (a i : Nat) (n : Notice) : Within s (s.handNotice a i n) := by
  cases n with
  | halt r t => exact (s.takeHalt_quiet a i r t).within
  | resume => exact (s.unhalt_quiet a).within
  | present r c m x d => exact (s.takePresent_quiet a i r c m x d).within
  | loss t m b =>
    unfold handNotice
    simp only []
    split
    · exact s.trackLoss_within t b
    · exact Within.refl s
  | pass t p m f l st =>
    unfold handNotice
    simp only []
    split
    · split
      · exact s.trackPass_within i _ t p m f l st
      · exact Within.refl s
    · exact Within.refl s
  | drop t p m b l st =>
    unfold handNotice
    simp only []
    split
    · exact s.handDrop_within a i _ t p m b l st
    · exact Within.refl s
  | hole m h l st =>
    unfold handNotice
    simp only []
    split
    · split
      · exact s.feedHole_within a i _ m h l st
      · exact Within.refl s
    · exact Within.refl s

@[simp] theorem receive_restartFlag (i : Nat) (n : Notice) :
    (s.receive i n).control.restartFlag = s.control.restartFlag := by
  unfold receive
  split_ifs
  · simp
  · exact (s.handNotice_within _ i n).restartFlag
  · rfl

@[simp] theorem frameEnds_restartFlag (failed : Bool) (f : Frame) :
    (s.frameEnds failed f).control.restartFlag = s.control.restartFlag := by
  unfold frameEnds; split <;> simp

end State

/-! ### The commands -/

/-- The outcome, if it is a next state, has the restart flag of state `s`. -/
def KeepsRestartFlag (s : State) (o : Host.Outcome State Fault Refusal) : Prop :=
  ∀ t, o = .next t → t.control.restartFlag = s.control.restartFlag

@[simp] theorem keepsRestartFlag_next (s t : State) :
    KeepsRestartFlag s (.next t) ↔ t.control.restartFlag = s.control.restartFlag := by
  simp [KeepsRestartFlag]

@[simp] theorem State.refuse_restartFlag (s : State) (n : Nat) (code : Byte) :
    (s.refuse n code).control.restartFlag = s.control.restartFlag := rfl

/-- Every command but CLEAR RESTART and a hard reset keeps the restart flag (R59). -/
theorem exec_keepsRestartFlag (c : Instr) (s : State) (hclear : c ≠ .clearRestart)
    (hreset : ∀ pins, c ≠ .hardReset pins) : KeepsRestartFlag s (exec c s) := by
  cases c <;> simp only [exec]
  case hardReset pins => exact absurd rfl (hreset pins)
  case clearRestart => exact absurd rfl hclear
  case decoderEvent => unfold execDecoderEvent; simp only []; split <;> simp
  case beltRunInputChange => unfold execBeltRunInputChange; simp only []; split_ifs <;> simp
  case encoderLossTimerExpiry => unfold execEncoderLossTimerExpiry; split_ifs <;> simp
  case eyeRawChange => unfold execEyeRawChange; simp only []; split_ifs <;> simp
  case eyeDebounceExpiry => unfold execEyeDebounceExpiry; simp only []; split_ifs <;> simp
  case clampClosedEdge => unfold execClampClosedEdge; split_ifs <;> simp
  case spreaderReadyRising => unfold execSpreaderReadyRising; simp only []; split_ifs <;> simp
  case spreaderReadyFalling => unfold execSpreaderReadyFalling; split_ifs <;> [split; skip] <;> simp
  case releasePulseExpiry => unfold execReleasePulseExpiry; simp only []; split_ifs <;> simp
  case spreaderStuckTimerExpiry => unfold execSpreaderStuckTimerExpiry; simp only []; split_ifs <;> simp
  case batchCloseInputActive => unfold execBatchCloseInputActive; split_ifs <;> simp
  case holdInputChange => simp [execHoldInputChange]
  case dischargeDone => unfold execDischargeDone; split_ifs <;> simp
  case bladePulseExpiry => unfold execBladePulseExpiry; simp only []; split_ifs <;> simp
  case settleTimerExpiry => unfold execSettleTimerExpiry; simp only []; split_ifs <;> simp
  case offLineTimerExpiry => unfold execOffLineTimerExpiry; simp only []; split_ifs <;> simp
  case sendAttemptStart => unfold execSendAttemptStart; split_ifs <;> simp
  case lostContention => unfold execLostContention; split <;> [skip; split_ifs] <;> simp
  case transmitFailure => unfold execTransmitFailure; split <;> [skip; split_ifs] <;> simp
  case transmitCompletion => unfold execTransmitCompletion; split <;> simp
  case frameAbandoned => unfold execFrameAbandoned; split <;> simp
  case receivedFrameEnd => unfold execReceivedFrameEnd; split <;> simp
  case readStatus => simp [execReadStatus]
  case readFaults => simp [execReadFaults]
  case ackFaults => simp [execAckFaults]
  case readTally => unfold execReadTally; split_ifs <;> simp
  case readImage => unfold execReadImage; split_ifs <;> simp
  case writeConfig => unfold execWriteConfig; split_ifs <;> simp [State.writeImage]
  case validate => unfold execValidate; split_ifs <;> [skip; skip; split] <;> simp [State.withStationState]
  case join => unfold execJoin; split_ifs <;> simp
  case leave => unfold execLeave; split_ifs <;> simp
  case stopLine => unfold execStopLine; split_ifs <;> simp
  case resume => unfold execResume; split_ifs <;> simp
  case closeStack =>
    unfold execCloseStack
    split_ifs <;> [skip; skip; split] <;> [skip; skip; skip; split_ifs] <;> simp
  case unknownCommand => unfold execUnknownCommand; split_ifs <;> simp
  case transactionCutShort => unfold execTransactionCutShort; split_ifs <;> simp
  case mediumBecomesIdle => unfold execMediumBecomesIdle; split_ifs <;> simp

/-! ### Operations in the case that nothing follows them -/

/-- A frame added to an active port whose queue has room enters at its place, and nothing else follows (R40). -/
theorem State.add_of_room {s : State} (hactive : s.port.active = true) (hroom : s.port.queue.length < 8) (n : Notice)
    (age : Nat) :
    s.add n age = { s with port := { s.port with queue := insertSlot ⟨n, age, false⟩ s.port.queue } } := by
  simp [State.add, State.put, hactive, putFrame, Config.queueCapacity, hroom]

/-- A masked occurrence brings no park cause (R61, R173, R174). -/
theorem State.parked_of_masked {s t : State} {o : Occurrence} (h : (s.faults.policyFor o.kind).masked = true)
    (hfaults : t.faults = s.faults.take o) (hstate : t.control.state = s.control.state) (htravel : t.travel = s.travel)
    (hhold : t.control.holdInput = s.control.holdInput) : t.parked = s.parked := by
  have hpending : t.faults.holdPending = s.faults.holdPending := by
    rw [hfaults, FaultUnit.take_of_masked h]; rfl
  simp [State.parked, State.parkCause, State.running, hstate, htravel, hhold, hpending]

/-- A masked occurrence is counted, and neither parks nor halts the station (R172, R173, R176). -/
theorem State.occur_of_masked {s : State} {o : Occurrence} (h : (s.faults.policyFor o.kind).masked = true) :
    s.occur o = { s with faults := s.faults.take o } := by
  have hparked : State.parked { s with faults := s.faults.take o } = s.parked :=
    State.parked_of_masked h rfl rfl rfl rfl
  have hnote : s.note o = { s with faults := s.faults.take o } := by
    simp [State.note, followParkBegin, hparked]
  simp [State.occur, FaultUnit.requestsHalt, h, hnote]

/-- With the halt set empty there is no HALT to send again (R57, R67). -/
theorem State.resendHalt_of_noHalt {s : State} (h : s.control.haltSet = 0) : s.resendHalt = s := by
  simp [State.resendHalt, State.ownHaltOut, State.halted, h]

/-- No drop test follows a step that changes neither park, halt set nor map (R134). -/
theorem reviewDrop_of_same {before s : State} (hparked : s.parked = before.parked)
    (hhalt : s.control.haltSet = before.control.haltSet) (hmap : s.feed.map = before.feed.map) :
    reviewDrop before s = s := by
  simp [reviewDrop, State.noHalt, hparked, hhalt, hmap]

/-! ### A frame received whole (R46) -/

theorem Notice.code_bounds (n : Notice) : 1 ≤ n.code ∧ n.code ≤ 7 := by
  cases n <;> simp [Notice.code]

theorem LinePort.reads_of_reading {s : State} {failed : Bool} (h : s.reading failed) : s.port.reads = some failed := by
  obtain ⟨hactive, hmedium | ⟨hmedium, rfl⟩⟩ := h <;> simp [LinePort.reads, hactive, hmedium]

/-- A frame that carries a notice passes every check of R46, and is handed on with its identifier. -/
theorem exec_receivedFrameEnd_of_carries {s : State} {bits : List Bool} {failed : Bool} {a : Nat} {n : Notice}
    (hreading : s.reading failed) (hbits : carries bits a n) :
    exec (.receivedFrameEnd bits) s = .next (reviewDrop s (s.waitIdle.receive (n.code * 16 + a) n)) := by
  obtain ⟨⟨ha1, ha15⟩, hnotice, hfollow⟩ := hbits
  obtain ⟨hn1, hn7⟩ := n.code_bounds
  have hident : (BitVec.ofNat 8 (n.code * 16 + a)).toNat = n.code * 16 + a := by
    rw [BitVec.toNat_ofNat]; omega
  have hcode : (n.code * 16 + a) / 16 = n.code := by omega
  have haddress : (n.code * 16 + a) % 16 = a := by omega
  have hjudge : judge ⟨BitVec.ofNat 8 (n.code * 16 + a), n.bytes,
      frameCheck (coveredBits (BitVec.ofNat 8 (n.code * 16 + a)) n.bytes)⟩ = .notice n := by
    have hcheck : ¬ (n.code = 0 ∨ 8 ≤ n.code) := by omega
    have hzero : a ≠ 0 := by omega
    simp [judge, Frame.expectedCheck, hident, hcode, haddress, hcheck, hzero, hnotice]
  simp only [exec, execReceivedFrameEnd, LinePort.reads_of_reading hreading, hfollow, State.frameEnds, hjudge, hident]

/-! ### The PRESENT that is added (R53, R57) -/

/-- JOIN leaves the PRESENT of the station, with defend no, alone in the queue (R53). -/
theorem State.joinLine_queue (s : State) : s.joinLine.port.queue = [⟨s.presentNotice false, 0, false⟩] := by
  unfold State.joinLine
  simp only []
  rw [State.add_of_room rfl (by simp)]
  rfl

/-- The reply of a RUNNING station without a halt to an own-address PRESENT with defend no, PEER being masked: a PRESENT
with defend yes enters the queue, and but for the count of PEER nothing else changes (R57). -/
theorem State.defend_of_present {s : State} (hhalt : s.control.haltSet = 0)
    (hmasked : (s.faults.policyFor .peer).masked = true) (hactive : s.port.active = true)
    (hroom : s.port.queue.length < 8) (i r n sum : Nat) (b : Bool) :
    s.defend i (.present r n sum b false) =
      { s with
        faults := s.faults.take (peerFault 4 i none)
        port := { s.port with queue := insertSlot ⟨s.presentNotice true, 0, false⟩ s.port.queue } } := by
  have hoccur : s.occur (peerFault 4 i none) = { s with faults := s.faults.take (peerFault 4 i none) } :=
    State.occur_of_masked hmasked
  have hresend : (s.occur (peerFault 4 i none)).resendHalt = s.occur (peerFault 4 i none) :=
    State.resendHalt_of_noHalt (by rw [hoccur]; exact hhalt)
  simp only [State.defend]
  rw [hresend, State.add_of_room (by rw [hoccur]; exact hactive) (by rw [hoccur]; exact hroom), hoccur]
  rfl

/-- In RUNNING an own-address frame is defended against (R47, R57). -/
theorem State.receive_own_of_running {s : State} (hrunning : s.control.state = .running) {ident : Nat} {n : Notice}
    (haddress : ident % 16 = Image.address s.image) : s.receive ident n = s.defend ident n := by
  unfold State.receive
  rw [if_pos haddress]
  simp [State.takeOwnAddress, hrunning]

/-- The own-address PRESENT with defend no, from its frame's end to the reply (R46, R47, R57). -/
theorem exec_receivedFrameEnd_defends {s : State} {bits : List Bool} {failed : Bool} {r n sum : Nat} {b : Bool}
    (hreading : s.reading failed) (hrunning : s.control.state = .running)
    (hbits : carries bits (Image.address s.image) (.present r n sum b false)) (hhalt : s.control.haltSet = 0)
    (hmasked : (s.faults.policyFor .peer).masked = true) (hroom : s.port.queue.length < 8) :
    ∃ t, exec (.receivedFrameEnd bits) s = .next t
      ∧ t.port.queue = insertSlot ⟨s.presentNotice true, 0, false⟩ s.port.queue := by
  have haddress :
      ((Notice.present r n sum b false).code * 16 + Image.address s.image) % 16 = Image.address s.image := by
    obtain ⟨⟨h1, h15⟩, -⟩ := hbits; omega
  rw [exec_receivedFrameEnd_of_carries hreading hbits]
  generalize (Notice.present r n sum b false).code * 16 + Image.address s.image = ident at haddress
  obtain ⟨hactive, -⟩ := hreading
  rw [State.receive_own_of_running (s := s.waitIdle) hrunning haddress,
    State.defend_of_present (s := s.waitIdle) hhalt hmasked hactive hroom, reviewDrop_of_same ?parked ?halt ?map]
  case halt | map => rfl
  case parked => exact State.parked_of_masked (o := peerFault 4 ident none) hmasked rfl rfl rfl rfl
  exact ⟨_, rfl, rfl⟩

/-- Settles O25: the flag is written by a hard reset and by CLEAR RESTART alone, and read into each PRESENT added. -/
theorem restartFlag : Obligations.RestartFlag := by
  unfold Obligations.RestartFlag
  refine ⟨fun pins s => ⟨_, rfl, rfl⟩, fun s => rfl, State.lockOut_restartFlag,
    fun c s t h hclear hreset => exec_keepsRestartFlag c s hclear hreset t h, ?join, ?defend⟩
  case join =>
    intro s t hstate hdeparture h
    have ht : t = s.respond s.joinLine 0 0x00 [] := by
      simpa [exec, execJoin, hstate, hdeparture, eq_comm] using h
    exact ⟨_, _, _, by rw [ht, State.respond_port, State.joinLine_queue]; rfl⟩
  case defend =>
    intro s bits failed r n sum b hreading hrunning hbits hhalt hmasked hroom
    obtain ⟨t, hexec, hqueue⟩ := exec_receivedFrameEnd_defends hreading hrunning hbits hhalt hmasked hroom
    exact ⟨t, _, _, _, hexec, hqueue⟩

end Sys2Proof.Machine
end

section
/-! PROOFS. The feed position (chapter 7): the four conditions of the drop test (R133), and the clamp-closed edge
(R122). -/

namespace Sys2Proof.Machine

theorem mem_laneList {m : LaneSet} {k : Lane} : k ∈ laneList m ↔ m.getLsbD k.val = true := by
  simp [laneList, hasLane, mem_lanes]

theorem lanesMeet_iff {a b : LaneSet} : lanesMeet a b = true ↔ a &&& b ≠ 0 := by
  simp [lanesMeet]

theorem mapHasRoom_iff {map : List Stretch} : mapHasRoom map = true ↔ map.length < 24 := by
  rw [mapHasRoom, decide_eq_true_iff, Config.mapCapacity]

theorem intervalsMeet_iff {a b c e : Int} : intervalsMeet a b c e = true ↔ a ≤ e ∧ c ≤ b := by
  simp [intervalsMeet]

/-- A stretch meets an interval where a lane is common and the closed intervals overlap (R126). -/
theorem Stretch.meets_iff {x : Stretch} {mask : LaneSet} {a b : Int} :
    x.meets mask a b = true ↔ x.mask &&& mask ≠ 0 ∧ x.head ≤ b ∧ a ≤ x.head + x.length := by
  rw [Stretch.meets, Bool.and_eq_true, lanesMeet_iff, intervalsMeet_iff, Stretch.tail]

theorem StretchKind.ne_ownHole_iff (k : StretchKind) : k ≠ .ownHole ↔ k = .piece ∨ k = .reserved := by
  cases k <;> simp

/-! ### The drop test (R133) -/

namespace State

theorem lineAllows_iff {s : State} :
    s.lineAllows = true ↔ s.control.state = .running ∧ s.parked = false ∧ s.control.haltSet = 0 := by
  simp [lineAllows, running, noHalt, and_assoc]

/-- Condition 2 looks at every stretch but the own hole. -/
theorem mapAllows_iff {s : State} {p : Piece} :
    s.mapAllows p = true ↔ ∀ x ∈ s.feed.map, x.kind = .piece ∨ x.kind = .reserved → x.mask &&& p.mask ≠ 0 →
      ¬ (x.head ≤ (p.nominal : Int) + (Image.profile s.image p.profile).gapAfter
        ∧ -((Image.profile s.image p.profile).gapBefore : Int) ≤ x.head + x.length) := by
  unfold mapAllows headProfile
  rw [List.all_eq_true]
  refine forall₂_congr fun x _ => ?_
  rw [← x.kind.ne_ownHole_iff, Bool.or_eq_true, beq_iff_eq, or_iff_not_imp_left, Bool.not_eq_true',
    ← Bool.not_eq_true, Stretch.meets_iff, not_and]

/-- Condition 3 asks nothing on a lane whose belt eye is OFF. -/
theorem eyesAllow_iff {s : State} {p : Piece} :
    s.eyesAllow p = true ↔ ∀ k : Lane, p.mask.getLsbD k.val = true → (s.eyes.get k).state ≠ .off →
      (s.eyes.get k).blocked = false
        ∧ Image.word s.image 0x016 + (Image.profile s.image p.profile).gapBefore ≤ (s.eyes.get k).clearRun := by
  unfold eyesAllow headProfile Image.beltEye
  rw [List.all_eq_true]
  refine forall_congr' fun k => imp_congr mem_laneList ?_
  rw [Bool.or_eq_true, beq_iff_eq, or_iff_not_imp_left, Bool.and_eq_true, Bool.not_eq_true', decide_eq_true_eq]

theorem dropTest_iff {s : State} {p : Piece} :
    s.dropTest p = true ↔
      s.lineAllows = true ∧ s.mapAllows p = true ∧ s.eyesAllow p = true ∧ mapHasRoom s.feed.map = true := by
  simp [dropTest, and_assoc]

end State

/-- Settles O15: each of the four conditions by its own rule. -/
theorem dropTestConditions : Obligations.DropTestConditions := by
  unfold Obligations.DropTestConditions
  intro s p
  rw [State.dropTest_iff, State.lineAllows_iff, State.mapAllows_iff, State.eyesAllow_iff, mapHasRoom_iff]

/-! ### The clamp-closed edge (R122) -/

/-- The record goes to the end of the queue with the counter's sequence, its mask and length taken from the profile
(R18, R23, R24). -/
theorem State.createRecord_eq (s : State) (p : Nat) :
    s.createRecord p = { s with
      control := { s.control with seq := s.control.seq + 1 }
      feed := { s.feed with queue := s.feed.queue ++
        [⟨⟨BitVec.ofNat 8 (Image.address s.image), s.control.seq⟩, p, Image.feedMask s.image p,
          (Image.profile s.image p).nominal, none, .none⟩] } } := rfl

theorem execClampClosedEdge_of_room {s : State} (hfeed : s.role = some .feed) (hrunning : s.running = true)
    (hroom : s.feed.queue.length < Config.feedCapacity) (select : BitVec 4) :
    execClampClosedEdge select s = .next (s.createRecord (selectedProfile s.image select.toNat)) := by
  rw [execClampClosedEdge, if_pos ⟨hfeed, hrunning⟩, if_pos hroom]

theorem execClampClosedEdge_of_full {s : State} (hfeed : s.role = some .feed) (hrunning : s.running = true)
    (hfull : Config.feedCapacity ≤ s.feed.queue.length) (select : BitVec 4) :
    execClampClosedEdge select s = .next (s.occur (feedFault none 1)) := by
  rw [execClampClosedEdge, if_pos ⟨hfeed, hrunning⟩, if_neg (Nat.not_lt.mpr hfull)]

theorem execClampClosedEdge_of_idle {s : State} (hidle : s.role ≠ some .feed ∨ s.running = false)
    (select : BitVec 4) : execClampClosedEdge select s = .next s := by
  unfold execClampClosedEdge
  refine if_neg ?_
  rintro ⟨hfeed, hrunning⟩
  rcases hidle with hrole | hstopped
  · exact hrole hfeed
  · simp [hrunning] at hstopped

/-- Settles O12, by the three cases of R122. -/
theorem clampClosedEdge : Obligations.ClampClosedEdge := by
  unfold Obligations.ClampClosedEdge
  intro s select
  refine ⟨fun hfeed hrunning hroom => ?_, fun hfeed hrunning hfull => ?_, fun hidle => ?_⟩ <;> simp only [exec]
  · rw [execClampClosedEdge_of_room hfeed hrunning hroom, State.createRecord_eq]
    rfl
  · exact execClampClosedEdge_of_full hfeed hrunning hfull select
  · exact execClampClosedEdge_of_idle hidle select

end Sys2Proof.Machine
end

section
/-! PROOFS. A discharging stacker's discharge-done (R165), the lost batch close (R166) and the runout count (R168). -/

namespace Sys2Proof.Machine

theorem State.onLineAs_iff {s : State} {r : Role} : s.onLineAs r = true ↔ s.onLine = true ∧ s.role = some r := by
  rw [State.onLineAs, Bool.and_eq_true, beq_iff_eq]

/-! ### The discharge-done (R165) -/

/-- The pre-stack of stacker c has become its stack, and the discharge output is inactive. -/
def SortUnit.takePre (u : SortUnit) (c : StackerNo) : SortUnit :=
  { u with stackers := u.stackers.set c ⟨false, (u.stackers.get c).pre, .empty, false⟩ }

/-- The pre-stack of a stacker has the pieces its own profile asks for. -/
def Stacker.preAtTarget (k : Stacker) (im : Image) : Prop :=
  k.pre.count ≠ 0 ∧ targetOf im k.pre.profile ≤ k.pre.count

namespace SortUnit

variable {u : SortUnit} {im : Image} {c : StackerNo}

theorem dischargeDone_of_owed (howed : (u.stackers.get c).batchOwed = true) (hpre : (u.stackers.get c).pre.count ≠ 0) :
    u.dischargeDone im c = (u.takePre c).close c .batch := by
  unfold dischargeDone
  rw [if_pos howed, if_neg hpre, takePre]

theorem dischargeDone_of_target (howed : (u.stackers.get c).batchOwed = false)
    (htarget : (u.stackers.get c).preAtTarget im) : u.dischargeDone im c = (u.takePre c).close c .count := by
  unfold dischargeDone
  rw [if_neg (Bool.eq_false_iff.mp howed)]
  exact if_pos htarget

theorem dischargeDone_of_not_closing
    (hstays : (u.stackers.get c).batchOwed = true ∧ (u.stackers.get c).pre.count = 0
      ∨ (u.stackers.get c).batchOwed = false ∧ ¬ (u.stackers.get c).preAtTarget im) :
    u.dischargeDone im c = (u.takePre c, []) := by
  unfold dischargeDone
  rcases hstays with ⟨howed, hpre⟩ | ⟨howed, htarget⟩
  · rw [if_pos howed, if_pos hpre, takePre]
  · rw [if_neg (Bool.eq_false_iff.mp howed)]
    exact if_neg htarget

end SortUnit

theorem execDischargeDone_of_discharging {s : State} {c : StackerNo} (hline : s.onLine = true)
    (hsort : s.role = some .sort) (hdischarging : (s.sort.stackers.get c).discharging = true) :
    execDischargeDone c s = .next (s.withSort (s.sort.dischargeDone s.image c)) := by
  rw [execDischargeDone, State.onLineAs_iff.mpr ⟨hline, hsort⟩, hdischarging, Bool.and_self, if_pos rfl]

theorem execDischargeDone_of_idle {s : State} {c : StackerNo}
    (hidle : s.onLine = false ∨ s.role ≠ some .sort ∨ (s.sort.stackers.get c).discharging = false) :
    execDischargeDone c s = .next s := by
  unfold execDischargeDone
  refine if_neg ?_
  rw [Bool.and_eq_true, State.onLineAs_iff]
  rintro ⟨⟨hline, hsort⟩, hdischarging⟩
  rcases hidle with h | h | h
  · exact absurd hline (Bool.eq_false_iff.mp h)
  · exact h hsort
  · exact absurd hdischarging (Bool.eq_false_iff.mp h)

/-- Settles O41, by the three outcomes of the hand-over. -/
theorem dischargeDone : Obligations.DischargeDone := by
  unfold Obligations.DischargeDone
  intro s c
  refine ⟨execDischargeDone_of_idle, fun hline hsort hdischarging => ?_⟩
  have hexec : exec (.dischargeDone c) s = .next (s.withSort (s.sort.dischargeDone s.image c)) :=
    execDischargeDone_of_discharging hline hsort hdischarging
  rw [hexec]
  refine ⟨fun howed hpre => ?owed, fun howed hfull => ?target, fun hstays => ?stays⟩
  case owed => rw [SortUnit.dischargeDone_of_owed howed hpre]; rfl
  case target => rw [SortUnit.dischargeDone_of_target howed hfull]; rfl
  case stays => rw [SortUnit.dischargeDone_of_not_closing hstays]; rfl

/-! ### The lost batch close (R166) -/

/-- The values of profile 0 are of stack class RUNOUT (R21). -/
theorem Image.stackClass_of_not_identified {im : Image} {p : Nat} (h : (Image.profile im p).identified = false) :
    (Image.profile im p).stackClass = .runout := by
  unfold Image.profile at h ⊢
  split at h
  · exact absurd h (by simp [Image.profileEntry])
  · rw [if_neg ‹_›]; rfl

namespace SortUnit

variable {u : SortUnit} {im : Image} {p : Piece} {c : StackerNo}

theorem lostBatch_of_runout (hclass : (Image.profile im p.profile).stackClass = .runout) :
    u.lostBatch im p = (u, []) := by
  rw [lostBatch, hclass]

theorem lostBatch_of_absent (hclass : (Image.profile im p.profile).stackClass = .stacker c)
    (habsent : Image.stackerCount im ≤ c.val) : u.lostBatch im p = (u, []) := by
  rw [lostBatch, hclass]
  exact if_pos habsent

theorem lostBatch_of_collecting (hclass : (Image.profile im p.profile).stackClass = .stacker c)
    (hpresent : c.val < Image.stackerCount im) (hcollecting : (u.stackers.get c).discharging = false) :
    u.lostBatch im p = if (u.stackers.get c).stack.count = 0 then (u, []) else u.close c .batch := by
  simp only [lostBatch, hclass, hcollecting, if_neg (Nat.not_le.mpr hpresent), Bool.false_eq_true, if_false]

theorem lostBatch_of_discharging (hclass : (Image.profile im p.profile).stackClass = .stacker c)
    (hpresent : c.val < Image.stackerCount im) (hdischarging : (u.stackers.get c).discharging = true) :
    u.lostBatch im p = if (u.stackers.get c).pre.count = 0 then (u, [])
      else ({ u with stackers := u.stackers.set c { u.stackers.get c with batchOwed := true } }, []) := by
  simp only [lostBatch, hclass, hdischarging, if_neg (Nat.not_le.mpr hpresent), if_true]

theorem close_runout (u : SortUnit) (c : StackerNo) (r : CloseReason) : (u.close c r).1.runout = u.runout := by
  obtain ⟨-, -, -, -, -, -, hrunout⟩ := u.close_rest c r
  exact hrunout

theorem lostBatch_runout (u : SortUnit) (im : Image) (p : Piece) : (u.lostBatch im p).1.runout = u.runout := by
  cases hclass : (Image.profile im p.profile).stackClass with
  | runout => rw [lostBatch_of_runout hclass]
  | stacker c =>
    rcases Nat.lt_or_ge c.val (Image.stackerCount im) with hpresent | habsent
    · cases hdischarging : (u.stackers.get c).discharging with
      | false =>
        rw [lostBatch_of_collecting hclass hpresent hdischarging]
        split_ifs
        · rfl
        · exact u.close_runout c .batch
      | true =>
        rw [lostBatch_of_discharging hclass hpresent hdischarging]
        split_ifs <;> rfl
    · rw [lostBatch_of_absent hclass habsent]

end SortUnit

theorem State.lostBatchClose_of_onLine {s : State} (hline : s.onLine = true) (hsort : s.role = some .sort) (p : Piece) :
    s.lostBatchClose p = s.withSort (s.sort.lostBatch s.image p) := by
  rw [State.lostBatchClose, if_pos (State.onLineAs_iff.mpr ⟨hline, hsort⟩)]

/-! ### The runout count (R168) -/

theorem min_succ_eq_ite (m n : Nat) : min m (n + 1) = if n < m then n + 1 else m := by
  split_ifs <;> omega

theorem SortUnit.count_runout (u : SortUnit) (im : Image) (p : Piece) (mixed : Bool) :
    u.count im .runout p mixed =
      if p.flags.batchClose then { u with runout := min 65535 (u.runout + 1) }.lostBatch im p
      else ({ u with runout := min 65535 (u.runout + 1) }, []) := rfl

theorem tagBytes_eq_pair (t : Option Tag) : ∃ a b, tagBytes t = [a, b] := by
  cases t <;> exact ⟨_, _, rfl⟩

theorem State.tracks_of_sort {s : State} (h : s.role = some .sort) : s.tracks = true := by
  rw [State.tracks, h]; rfl

/-- The status word of a SORT station shows the runout count at 26h and 27h (R190): every part before it has a length of
its own, the tag's two bytes among them. -/
theorem State.statusWord_runout {s : State} (h : s.role = some .sort) :
    (s.statusWord.drop 0x26).take 2 = wordBytes s.sort.runout := by
  obtain ⟨a, b, htag⟩ := tagBytes_eq_pair (s.control.firstHalt.bind (·.tag))
  unfold State.statusWord
  rw [htag, State.tracks_of_sort h, h]
  rfl

theorem wordBytes_eq_div_mod (n : Nat) : wordBytes n = [BitVec.ofNat 8 (n / 256), BitVec.ofNat 8 (n % 256)] := by
  have hlow : BitVec.ofNat 8 n = BitVec.ofNat 8 (n % 256) := BitVec.eq_of_toNat_eq (by simp)
  rw [wordBytes, hlow]

namespace State

theorem lockOut_runout (s : State) (cause : LockoutCause) : (s.lockOut cause).sort.runout = s.sort.runout := rfl

theorem leaveLine_runout (s : State) : s.leaveLine.sort.runout = s.sort.runout := by
  have hcleared : s.leaveHalt.withdraw.1.clearTracking.sort.runout = s.leaveHalt.sort.runout := rfl
  unfold leaveLine
  simp only []
  split_ifs <;> exact hcleared.trans s.leaveHalt_quiet.runout

end State

theorem execLeave_runout {s t : State} (h : execLeave s = .next t) : t.sort.runout = s.sort.runout := by
  unfold execLeave at h
  split_ifs at h <;> obtain rfl := Host.Outcome.next.inj h
  · exact s.leaveLine_runout
  · rfl

theorem execHardReset_runout {pins : Pins} {s t : State} (h : execHardReset pins s = .next t) :
    t.sort.runout = 0 := by
  obtain rfl := Host.Outcome.next.inj h
  rfl

/-- Settles O43: the lost batch close by the stacker's state, and what the runout count goes through. -/
theorem runoutCount : Obligations.RunoutCount := by
  unfold Obligations.RunoutCount
  refine ⟨fun u im p => ⟨?nothing, fun c _ hclass hpresent => ?stacker, u.lostBatch_runout im p⟩,
    fun s p hline hsort => State.lostBatchClose_of_onLine hline hsort p, fun u im p mixed => ?counted,
    fun s hsort _ => ?shown, fun _ _ _ => execHardReset_runout, fun _ _ => execLeave_runout, State.lockOut_runout⟩
  case nothing =>
    rintro (hzero | hrunout | ⟨c, hclass, habsent⟩)
    · exact SortUnit.lostBatch_of_runout (Image.stackClass_of_not_identified hzero)
    · exact SortUnit.lostBatch_of_runout hrunout
    · exact SortUnit.lostBatch_of_absent hclass habsent
  case stacker =>
    refine ⟨fun hd hcount => ?_, fun hd hcount => ?_, fun hd hcount => ?_, fun hd hcount => ?_⟩
    · rw [SortUnit.lostBatch_of_collecting hclass hpresent hd, if_neg hcount]
    · rw [SortUnit.lostBatch_of_discharging hclass hpresent hd, if_neg hcount]
    · rw [SortUnit.lostBatch_of_collecting hclass hpresent hd, if_pos hcount]
    · rw [SortUnit.lostBatch_of_discharging hclass hpresent hd, if_pos hcount]
  case counted => rw [SortUnit.count_runout, min_succ_eq_ite]
  case shown => rw [State.statusWord_runout hsort, wordBytes_eq_div_mod]

end Sys2Proof.Machine
end

section
/-! PROOFS. The acknowledgement of faults (R177), and the drop test where it ends a park (R61, R134, R174). -/

namespace Sys2Proof.Machine

/-! ### The acknowledgement at the fault unit (R177) -/

theorem FaultKind.bit_eq_twoPow (k : FaultKind) : k.bit = BitVec.twoPow 16 k.place.val := by
  cases k <;> rfl

theorem FaultKind.and_bit_ne_zero_iff (k : FaultKind) (kinds : BitVec 16) :
    kinds &&& k.bit ≠ 0 ↔ kinds.getLsbD k.place.val = true := by
  have hpos : BitVec.twoPow 16 k.place.val ≠ 0 := by cases k <;> decide
  rw [k.bit_eq_twoPow, BitVec.and_twoPow]
  split_ifs with hbit
  · exact iff_of_true hpos hbit
  · exact iff_of_false (· rfl) hbit

namespace FaultUnit

/-- The first-fault record holds an occurrence whose kind is in the set. -/
def RecordIn (u : FaultUnit) (kinds : BitVec 16) : Prop :=
  ∃ o, u.first = some o ∧ kinds.getLsbD o.kind.place.val = true

variable {u : FaultUnit} {kinds : BitVec 16}

theorem ack_of_recordIn (h : u.RecordIn kinds) :
    u.ack kinds = { u with pending := u.pending &&& ~~~ kinds, first := none, more := false } := by
  obtain ⟨o, hfirst, hkind⟩ := h
  have hmeets : kinds &&& o.kind.bit ≠ 0 := (o.kind.and_bit_ne_zero_iff kinds).mpr hkind
  simp only [ack, hfirst, bne_iff_ne.mpr hmeets, if_true]

theorem ack_of_not_recordIn (h : ¬ u.RecordIn kinds) :
    u.ack kinds = { u with pending := u.pending &&& ~~~ kinds } := by
  cases hfirst : u.first with
  | none => simp [ack, hfirst]
  | some o =>
    have hkind : kinds &&& o.kind.bit = 0 := by
      by_contra hne
      exact h ⟨o, hfirst, (o.kind.and_bit_ne_zero_iff kinds).mp hne⟩
    simp [ack, hfirst, hkind]

end FaultUnit

/-! ### The command (R134, R177) -/

/-- Of a step that changes neither halt set nor map, only the end of a park brings the drop test (R134). -/
theorem reviewDrop_of_same_halt_map {before s : State} (hhalt : s.control.haltSet = before.control.haltSet)
    (hmap : s.feed.map = before.feed.map) :
    reviewDrop before s = if before.parked = true ∧ s.parked = false then s.evalDrop else s := by
  simp [reviewDrop, State.noHalt, hhalt, hmap]

theorem execAckFaults_eq (kinds : BitVec 16) (s : State) :
    let u := { s with faults := s.faults.ack kinds }
    execAckFaults kinds s =
      .next (answered s (if s.parked = true ∧ u.parked = false then u.evalDrop else u) 2 [0x00]) := by
  intro u
  rw [execAckFaults, State.respond_eq_answered, reviewDrop_of_same_halt_map (before := s) (s := u) rfl rfl]

/-- Settles O38: the state before the drop test is `s` with its fault unit acknowledged, and the record follows its
kind. -/
theorem ackFaults : Obligations.AckFaults := by
  unfold Obligations.AckFaults
  intro s kinds cleared
  refine ⟨{ s with faults := s.faults.ack kinds }, execAckFaults_eq kinds s, rfl, rfl, rfl, rfl,
    fun hcleared => ?inSet, fun hkept => ?outside⟩
  case inSet => simp only [FaultUnit.ack_of_recordIn hcleared, and_self]
  case outside => simp only [FaultUnit.ack_of_not_recordIn hkept, and_self]

end Sys2Proof.Machine
end

section
/-! PROOFS. What a command can do, said once for every command: the acts it is made of. An act is one change to one
block, or to the few blocks that a rule changes together, under what the rules have made sure of when they ask for it.
A law that every act keeps is a law that every command keeps. -/

namespace Sys2Proof.Machine

open Sys2Proof

/-! ### The acts, block by block -/

/-- What one act does to the tracker (R71 to R78, R104 to R118). -/
inductive TrackerAct (t : Tracker) : Tracker → Prop where
  /-- an entry leaves -/
  | remove {e : Entry} : TrackerAct t (t.remove e)
  /-- an entry's passage begins, goes on or gains a lane -/
  | passage {e : Entry} {g : Option Passage} : TrackerAct t (t.replace e { e with passage := g })
  /-- orphan records and adopted passages -/
  | strays {os : Quad (Option Orphan)} {as : List Adopted} : TrackerAct t { t with orphans := os, adopted := as }
  /-- an entry of a new tag, in a list with room -/
  | insert {e : Entry} (hearly : e.early ≤ 2047) (hlate : e.late ≤ 2047) (hroom : t.entries.length < 32)
      (hnew : ∀ x ∈ t.entries, x.piece.tag ≠ e.piece.tag) : TrackerAct t (t.insert e)
  /-- the entry of a known tag, placed anew -/
  | refresh {e x : Entry} (hearly : e.early ≤ 2047) (hlate : e.late ≤ 2047) (hknown : t.find e.piece.tag = some x) :
      TrackerAct t ((t.remove x).insert e)

/-- What one act does to the sort unit of a station on the line (R152 to R168). -/
inductive SortAct (im : Image) (u : SortUnit) : SortUnit → Prop where
  | decide {parked : Bool} {pulse : Timer} {p : SortPiece} : SortAct im u (u.decide im parked pulse p).1
  | lostBatch {p : Piece} : SortAct im u (u.lostBatch im p).1
  | close {c : StackerNo} {reason : CloseReason} : SortAct im u (u.close c reason).1
  | dischargeDone {c : StackerNo} : SortAct im u (u.dischargeDone im c).1
  | leadingEdge {eyes : Quad Eye} {k : Lane} : SortAct im u (u.leadingEdge eyes k)
  | trailingEdge : SortAct im u u.trailingEdge
  | parkBegin : SortAct im u u.parkBegin

/-- How many stretches of a map are an own hole. -/
def ownHoles (map : List Stretch) : Nat := (map.filter fun x => x.kind == .ownHole).length

/-- What one act does to the feed unit (R121 to R125, R127 to R131, R138, R146). -/
inductive FeedAct (f : FeedUnit) : FeedUnit → Prop where
  /-- the handshake, the timers, the latch, patience, and the head record's leaving -/
  | work {g : FeedUnit} (hmap : g.map = f.map) (hqueue : g.queue.length ≤ f.queue.length)
      (hpatience : g.patience ≤ 65535 ∨ g.patience = f.patience) : FeedAct f g
  /-- a record at the end of a queue with room -/
  | record {p : Piece} (hroom : f.queue.length < 2) : FeedAct f { f with queue := f.queue ++ [p] }
  /-- a piece or a reservation enters a map with room -/
  | stretch {x : Stretch} (hroom : f.map.length < 24) (hkind : x.kind ≠ .ownHole) :
      FeedAct f { f with map := insertStretch x f.map }
  /-- stretches move, grow or leave, and the own hole stays -/
  | stretches {m : List Stretch} (hlength : m.length ≤ f.map.length) (hown : ownHoles m = ownHoles f.map) :
      FeedAct f { f with map := m }

/-- What one act does to station control's halt set, announcement state, inputs and sequence counter (R18, R59, R61 to
R67). -/
inductive ControlAct (c : Instr) (s : State) : StationControl → Prop where
  | raise {reason : Nat} {tag : Option Tag} (hrunning : s.running = true) :
      ControlAct c s ({ s.control with ownHalt := some ⟨reason, tag⟩ }.addHalt (Image.address s.image) reason tag)
  | announce {k : Announced} (hline : s.onLine = true) : ControlAct c s (s.control.announceStep k).1
  | resume (hout : s.ownHaltOut = true) :
      ControlAct c s
        (({ s.control.removeHalt (Image.address s.image) with ownHalt := none }).announceStep .resume).1
  | peerHalt {a reason : Nat} {tag : Option Tag} (hline : s.onLine = true) (haddress : isAddress a)
      (hpeer : a ≠ Image.address s.image) : ControlAct c s (s.control.addHalt a reason tag)
  | peerResume {a : Nat} (hline : s.onLine = true) (hpeer : a ≠ Image.address s.image) :
      ControlAct c s (s.control.removeHalt a)
  | completed : ControlAct c s { s.control with queued := s.control.owed, owed := none }
  | inputs {hold restart : Bool} : ControlAct c s { s.control with holdInput := hold, restartFlag := restart }
  | draw (hdraw : mayDraw c) (hline : s.onLine = true) : ControlAct c s { s.control with seq := s.control.seq + 1 }

/-- The failure count after one more failure, held at 16 (R36). -/
def LinePort.nextFailures (p : LinePort) : Nat := min Config.offLineFailures (p.failures + 1)

/-- The port after a transmit failure: the frame waits again, and the 16th failure takes the port off-line (R36,
R38). -/
def LinePort.failed (p : LinePort) (timer : Timer) : LinePort :=
  { p.backToWaiting with
    failures := p.nextFailures
    medium := .following true
    offLine := if p.nextFailures = Config.offLineFailures then true else p.offLine
    offLineTimer := if p.nextFailures = Config.offLineFailures then timer else p.offLineTimer }

/-- What one act does to the line port's medium and attempts (R30, R35 to R39). -/
inductive PortAct (p : LinePort) : LinePort → Prop where
  | medium {m : Medium} (hactive : p.active = true) (hidle : p.medium ≠ .sending) (hm : m ≠ .sending) :
      PortAct p { p with medium := m }
  | start (hsend : p.maySend = true) (hqueue : p.queue ≠ []) :
      PortAct p { p with queue := startFirst p.queue, medium := .sending }
  | contention {x : Slot} (hx : p.inSend = some x) : PortAct p { p.backToWaiting with medium := .following false }
  | failure {x : Slot} {timer : Timer} (hx : p.inSend = some x) (htimer : timer ≠ .stopped) : PortAct p (p.failed timer)
  | sent {x : Slot} (hx : p.inSend = some x) (hkind : x.notice.code ≠ 6) : PortAct p p.sent
  | offLineEnds : PortAct p { p with offLine := false, failures := 0, offLineTimer := .stopped }

/-- The hole unit has asked the port for its HOLE, and takes the answer (R42, R147, R149 to R151). -/
def State.askWithdraw (s : State) : State :=
  { s.withdraw.1 with hole := { s.withdraw.1.hole with frame := if s.withdraw.2 then .none else .abandoned } }

/-- The own hole has entered the map with its fit, and the frame state is CURRENT (R143). -/
def State.holdOpen (s : State) (x : Stretch) (f : Fit) : State :=
  { s with feed := { s.feed with map := Machine.insertStretch x s.feed.map }, hole := ⟨some f, .current⟩ }

/-- The station as it enters JOINING, before its PRESENT is added (R53). -/
def State.joined (s : State) : State :=
  let s1 := s.renewEyes
  { s1 with
    spi := { s1.spi with frozen := true }
    faults := { s1.faults with policy := Image.policy s1.image }
    travel := { s1.travel with
      fraction := 0
      lossTimer := if s1.travel.beltRun then s1.startTimer (Image.lossMs s1.image) else .stopped }
    port := ⟨true, .busy, [], 0, false, .stopped⟩
    control := { s1.control with state := .joining, settleTimer := s1.startTimer Config.settleMs } }

/-- The station off the line, the clear of the queue or the departure still to come (R68). -/
def State.unfrozen (s : State) : State :=
  let s1 := s.withdraw.1.clearTracking
  { s1 with
    eyes := s1.eyes.mapAt fun _ (e : Eye) => e.unfrozen
    spi := { s1.spi with frozen := false }
    control := { s1.control with
      state := .configured, haltSet := 0, firstHalt := none, ownHalt := none, settleTimer := .stopped } }

/-- The station after LEAVE, its own halt having been withdrawn (R68, R69). -/
def State.departed (s : State) : State :=
  if s.control.queued.isNone && s.control.owed.isNone then s.unfrozen.clearPort
  else { s.unfrozen with control := { s.unfrozen.control with departure := true } }

/-- The commands at which a clash can come about (R36, R47, R55). -/
def mayClash (c : Instr) : Prop :=
  match c with
  | .transmitFailure _ | .receivedFrameEnd _ => True
  | _ => False

/-- The commands that are transactions of the processor port, or parts of one (R181, R182). -/
def onPort (c : Instr) : Prop := encodeTransaction c ≠ none ∨ c = .transactionCutShort true

/-- What moves the station between its states, changes its image, or ends a departure (R51 to R55, R68, R69, R183). -/
inductive Move (c : Instr) (s : State) : State → Prop where
  | endDeparture (hc : c = .transmitCompletion) (hdeparture : s.control.departure = true)
      (hqueued : s.control.queued = none) (howed : s.control.owed = none) :
      Move c s (State.clearPort { s with control := { s.control with departure := false } })
  | join (hc : c = .join) (hstate : s.control.state = .configured) (hdeparture : s.control.departure = false) :
      Move c s s.joined
  | leave (hc : c = .leave) (hline : s.onLine = true) : Move c s s.departed
  | lockOut {cause : LockoutCause} (hc : mayClash c) (hstate : s.control.state = .joining) : Move c s (s.lockOut cause)
  | settle (hc : c = .settleTimerExpiry) (hstate : s.control.state = .joining) :
      Move c s { s with control := { s.control with state := .running, settleTimer := .stopped } }
  | writeImage {o : BitVec 16} {data : List Byte} (hc : c = .writeConfig o data) (hfrozen : s.spi.frozen = false)
      (hdeparture : s.control.departure = false) (hallowed : stretchAllowed o.toNat data.length = true) :
      Move c s (s.writeImage o.toNat data)
  | validate {x : StationState} (hc : c = .validate) (hfrozen : s.spi.frozen = false)
      (hdeparture : s.control.departure = false)
      (hx : (x = .configured ∧ Image.firstFailure s.image = none) ∨ x = .unconfigured) :
      Move c s (s.withStationState x)
  | reset {pins : Pins} (hc : c = .hardReset pins) :
      Move c s { State.afterReset pins with pending := s.pending }

/-- One act of command `c` (R1 to R190). -/
inductive Act (c : Instr) (s : State) : State → Prop where
  | timeBase {n : Nat} : Act c s { s with timeBase := n }
  | answer {x : Option Byte} {l : List Byte} (hport : onPort c) :
      Act c s { s with spi := { s.spi with transaction := x, returned := l } }
  | take {o : Occurrence} : Act c s { s with faults := s.faults.take o }
  | ack {kinds : BitVec 16} (hc : c = .ackFaults kinds) : Act c s { s with faults := s.faults.ack kinds }
  | eyes {e : Quad Eye} (hlosses : ∀ k, (e.get k).losses ≤ 15 ∨ (e.get k).losses = (s.eyes.get k).losses) :
      Act c s { s with eyes := e }
  | tracker {t : Tracker} (hline : s.onLine = true) (h : TrackerAct s.tracker t) : Act c s { s with tracker := t }
  | sort {u : SortUnit} (hline : s.onLine = true) (h : SortAct s.image s.sort u) : Act c s { s with sort := u }
  | bladeEnds : Act c s { s with sort := { s.sort with bladeTimer := .stopped } }
  | tallyTaken {n : Nat} : Act c s { s with sort := { s.sort with tally := s.sort.tally.drop n } }
  | feed {f : FeedUnit} (hline : s.onLine = true ∨ s.feed ≠ .cleared s.feed.spreader) (h : FeedAct s.feed f) :
      Act c s { s with feed := f }
  | spreader {b : Bool} : Act c s { s with feed := { s.feed with spreader := b } }
  | travel {t : TravelUnit}
      (h : s.onLine = true ∨ (t.fraction = s.travel.fraction ∧ t.lost = s.travel.lost
        ∧ (t.lossTimer = s.travel.lossTimer ∨ t.lossTimer = .stopped))) : Act c s { s with travel := t }
  | encoderLost (htimer : s.travel.lossTimer ≠ .stopped) :
      Act c s { s with
        travel := { s.travel with lost := true, lossTimer := .stopped }, tracker := s.tracker.degrade }
  | control {k : StationControl} (h : ControlAct c s k) : Act c s { s with control := k }
  | port {p : LinePort} (h : PortAct s.port p) : Act c s { s with port := p }
  | put {n : Notice} {age : Nat} (hkind : n.code ≠ 6) : Act c s (s.put n age).1
  | askWithdraw (hline : s.onLine = true) : Act c s s.askWithdraw
  | dropOwnHole (hline : s.onLine = true) : Act c s s.dropOwnHole
  | openHole {x : Stretch} {f : Fit} {n : Notice} (hline : s.onLine = true) (hroom : s.feed.map.length < 24)
      (hown : s.ownHole = none) (hframe : s.hole.frame = .none) (hx : x.kind = .ownHole) (hn : n.code = 6) :
      Act c s ((s.holdOpen x f).put n 0).1
  | stretchesPass (hline : s.onLine = true) (hspent : s.holeSpent = false) :
      Act c s { s with feed := { s.feed with map := s.feed.map.filter fun x => decide (0 ≤ x.tail) } }
  | holeSent {x : Slot} (hx : s.port.inSend = some x) (hkind : x.notice.code = 6) :
      Act c s (State.holeCompleted { s with port := s.port.sent })
  | moveAll {d : Int} (hline : s.onLine = true) : Act c s (s.moveAll d)
  | move {t : State} (h : Move c s t) : Act c s t

/-- Any number of acts of one command, one after another. -/
abbrev Acts (c : Instr) : State → State → Prop := Relation.ReflTransGen (Act c)

/-- A property that each act keeps is kept by any number of them. -/
theorem Acts.keep {c : Instr} {P : State → Prop} (hP : ∀ s t, Act c s t → P s → P t) {s t : State} (h : Acts c s t)
    (hs : P s) : P t := by
  induction h with
  | refl => exact hs
  | tail _ hact ih => exact hP _ _ hact ih

end Sys2Proof.Machine
end

section
/-! PROOFS. The operations that several blocks ask of one owner, and the role blocks' work, are made of acts. -/

namespace Sys2Proof.Machine

open Sys2Proof

variable {c : Instr} {s : State}

/-! ### Occurrences, frames and announcements (R40, R65, R67, R173) -/

/-- A park begins only at a station that was RUNNING (R61). -/
theorem State.running_of_not_parked (h : s.parked = false) : s.running = true := by
  cases hr : s.running with
  | true => rfl
  | false => simp [State.parked, hr] at h

theorem State.onLine_of_running (h : s.running = true) : s.onLine = true := by
  have hstate : s.control.state = .running := by simpa [State.running] using h
  simp [State.onLine, hstate]

theorem followParkBegin_acts {before : State} (hstate : s.control.state = before.control.state) :
    Acts c s (followParkBegin before s) := by
  unfold followParkBegin
  split
  next h =>
    simp only [Bool.and_eq_true, Bool.not_eq_true'] at h
    obtain ⟨⟨hparked, -⟩, -⟩ := h
    have hline := State.onLine_of_running (State.running_of_not_parked hparked)
    exact .single (.sort ((State.onLine_of_state hstate).trans hline) .parkBegin)
  next => exact .refl

theorem State.note_acts {o : Occurrence} : Acts c s (s.note o) :=
  .head .take (followParkBegin_acts rfl)

theorem State.addQuiet_acts {n : Notice} {age : Nat} (hn : n.code ≠ 6) : Acts c s (s.addQuiet n age) := by
  have h : Acts c s (s.put n age).1 := .single (.put hn)
  unfold State.addQuiet
  split
  next e => rw [e] at h; exact h
  next e => rw [e] at h; exact h.trans State.note_acts

theorem StationControl.announcement_code (k : StationControl) (a : Announced) : (k.announcement a).code ≠ 6 := by
  cases a <;> simp [StationControl.announcement, Notice.code]

theorem State.presentNotice_code (d : Bool) : (s.presentNotice d).code ≠ 6 := by
  simp [State.presentNotice, Notice.code]

theorem passOf_code (p : Piece) (n : Nat) : (passOf p n).code ≠ 6 := by simp [passOf, Notice.code]

theorem dropOf_code (p : Piece) (b : Bool) : (dropOf p b).code ≠ 6 := by simp [dropOf, Notice.code]

/-- The frame that follows an announcement step, where one does (R67). -/
theorem State.announceQuiet_acts_of {u : State} {k : Announced}
    (h : Acts c s { u with control := (u.control.announceStep k).1 }) : Acts c s (u.announceQuiet k) := by
  unfold State.announceQuiet
  simp only []
  split
  · exact h.trans (State.addQuiet_acts (StationControl.announcement_code _ _))
  · exact h

theorem State.raiseOwnHalt_acts {r : Nat} {t : Option Tag} (hrunning : s.running = true) :
    Acts c s (s.raiseOwnHalt r t) := by
  unfold State.raiseOwnHalt
  refine State.announceQuiet_acts_of (.head (.control (.raise hrunning)) (.single (.control (.announce ?_))))
  exact State.onLine_of_running hrunning

theorem State.occur_acts {o : Occurrence} : Acts c s (s.occur o) := by
  unfold State.occur State.takeHaltRequest
  split
  · split
    next h =>
      rw [Bool.and_eq_true] at h
      exact State.note_acts.trans (State.raiseOwnHalt_acts h.1)
    next => exact State.note_acts
  · exact State.note_acts

theorem State.occurAll_acts (os : List Occurrence) : Acts c s (s.occurAll os) := by
  induction os generalizing s with
  | nil => exact .refl
  | cons o os ih => exact State.occur_acts.trans ih

/-- The occurrence that follows a frame put, where one does (R40). -/
theorem State.add_acts_of {u : State} {n : Notice} {age : Nat} (h : Acts c s (u.put n age).1) :
    Acts c s (u.add n age) := by
  unfold State.add
  split
  next e => rw [e] at h; exact h
  next e => rw [e] at h; exact h.trans State.occur_acts

theorem State.add_acts {n : Notice} {age : Nat} (hn : n.code ≠ 6) : Acts c s (s.add n age) :=
  State.add_acts_of (.single (.put hn))

theorem State.announce_acts_of {u : State} {k : Announced}
    (h : Acts c s { u with control := (u.control.announceStep k).1 }) : Acts c s (u.announce k) := by
  unfold State.announce
  simp only []
  split
  · exact h.trans (State.add_acts (StationControl.announcement_code _ _))
  · exact h

theorem State.resendHalt_acts (hline : s.onLine = true) : Acts c s s.resendHalt := by
  unfold State.resendHalt
  split
  · exact State.announce_acts_of (.single (.control (.announce hline)))
  · exact .refl

/-- An occurrence that is reported where a condition holds. -/
theorem State.occurIf_acts (b : Bool) (o : Occurrence) : Acts c s (if b then s.occur o else s) := by
  split
  · exact State.occur_acts
  · exact .refl

/-- Work done in turn on the members of a list is made of acts where each piece of it is. -/
theorem acts_foldl {α : Type} {f : State → α → State} (hf : ∀ s x, Acts c s (f s x)) (l : List α) (s : State) :
    Acts c s (l.foldl f s) := by
  induction l generalizing s with
  | nil => exact .refl
  | cons x l ih => exact (hf s x).trans (ih _)

/-- The same for work that is asked for on the line alone. -/
theorem acts_foldl_onLine {α : Type} {f : State → α → State} (hf : ∀ s x, s.onLine = true → Acts c s (f s x))
    (hw : ∀ s x, Within s (f s x)) (l : List α) (hline : s.onLine = true) : Acts c s (l.foldl f s) := by
  induction l generalizing s with
  | nil => exact .refl
  | cons x l ih => exact (hf s x hline).trans (ih ((hw s x).onLine.trans hline))

/-! ### Sort unit (chapter 9) -/

theorem State.withSort_acts {r : SortUnit × List Occurrence} (hline : s.onLine = true)
    (h : SortAct s.image s.sort r.1) : Acts c s (s.withSort r) :=
  .head (.sort hline h) (State.occurAll_acts r.2)

theorem State.sortPiece_acts {p : SortPiece} : Acts c s (s.sortPiece p) := by
  unfold State.sortPiece
  split
  next h => exact State.withSort_acts (State.onLineAs_iff.mp h).1 .decide
  next => exact .refl

theorem State.lostBatchClose_acts {p : Piece} : Acts c s (s.lostBatchClose p) := by
  unfold State.lostBatchClose
  split
  next h => exact State.withSort_acts (State.onLineAs_iff.mp h).1 .lostBatch
  next => exact .refl

/-! ### Tracker (chapters 5 and 6) -/

theorem State.handOn_acts {p : Piece} {d : Bool} {n : Nat} : Acts c s (s.handOn p d n) := by
  unfold State.handOn
  split
  · exact State.add_acts (passOf_code _ _)
  · exact State.sortPiece_acts
  · exact .refl
  · exact .refl

theorem State.passageEnd_acts {p : Piece} {g : Passage} {n : Nat} : Acts c s (s.passageEnd p g n) :=
  ((State.occurIf_acts _ _).trans (State.occurIf_acts _ _)).trans State.handOn_acts

theorem State.strayEnd_acts {p : Piece} {g : Passage} {n : Nat} : Acts c s (s.strayEnd p g n) := State.handOn_acts

theorem State.adopt_acts (hdraw : mayDraw c) (hline : s.onLine = true) (k : Lane) (o : Orphan) :
    Acts c s (s.adopt k o) := by
  have hdrawn : Acts c s s.draw.2 := .single (.control (.draw hdraw hline))
  unfold State.adopt
  simp only []
  generalize (⟨.stray, some s.draw.1, some k, BitVec.ofNat 16 o.travel⟩ : Occurrence) = stray
  have htold : Acts c s (s.draw.2.occur stray) := hdrawn.trans State.occur_acts
  have hline' : (s.draw.2.occur stray).onLine = true := (State.occur_quiet _ _).onLine.trans hline
  generalize s.draw.2.occur stray = u at htold hline'
  split
  · exact (htold.tail (.tracker hline' .strays)).trans State.strayEnd_acts
  · exact htold.tail (.tracker hline' .strays)

theorem State.adoptPastGrace_acts (hdraw : mayDraw c) (hline : s.onLine = true) (n : Nat) :
    Acts c s (s.adoptPastGrace n) := by
  induction n generalizing s with
  | zero => exact .refl
  | succ n ih =>
    unfold State.adoptPastGrace
    split
    · exact .refl
    · exact (State.adopt_acts hdraw hline _ _).trans (ih ((s.adopt_within _ _).onLine.trans hline))

theorem State.makeOrphan_acts (hdraw : mayDraw c) (hline : s.onLine = true) {k : Lane} :
    Acts c s (s.makeOrphan k) := by
  obtain ⟨hacts, hline'⟩ : Acts c s (match s.tracker.orphans.get k with | none => s | some o => s.adopt k o)
      ∧ State.onLine (match s.tracker.orphans.get k with | none => s | some o => s.adopt k o) = true := by
    split
    · exact ⟨.refl, hline⟩
    · exact ⟨State.adopt_acts hdraw hline _ _, (s.adopt_within _ _).onLine.trans hline⟩
  exact hacts.tail (.tracker hline' .strays)

theorem Eye.matched_losses (e : Eye) : e.matched.losses ≤ 15 ∨ e.matched.losses = e.losses := by
  unfold Eye.matched
  split <;> simp

/-- One lane's eye changed, its loss count in range or as it was. -/
theorem State.eye_acts {k : Lane} {x : Eye} (hx : x.losses ≤ 15 ∨ x.losses = (s.eyes.get k).losses) :
    Acts c s { s with eyes := s.eyes.set k x } := by
  refine .single (.eyes fun j => ?_)
  rw [Quad.get_set]
  split
  next h => subst h; exact hx
  next => exact .inr rfl

theorem State.matchedSighting_acts {k : Lane} : Acts c s (s.matchedSighting k) :=
  State.eye_acts (Eye.matched_losses _)

theorem State.trackLeading_acts (hdraw : mayDraw c) (hline : s.onLine = true) {k : Lane} :
    Acts c s (s.trackLeading k) := by
  unfold State.trackLeading
  split
  · split
    · exact .head (.tracker hline .passage) State.matchedSighting_acts
    · exact .refl
  · split
    · exact .head (.tracker hline .passage) State.matchedSighting_acts
    · exact State.makeOrphan_acts hdraw hline

theorem State.unblock_acts (hline : s.onLine = true) {k : Lane} {b : Bool} : Acts c s (s.unblock k b) := by
  unfold State.unblock
  simp only []
  split
  · unfold State.unblockEntry
    split
    · exact .head (.tracker hline .remove) State.passageEnd_acts
    · exact .single (.tracker hline .passage)
  · split
    · unfold State.unblockAdopted
      split
      · exact .head (.tracker hline .strays) State.strayEnd_acts
      · exact .single (.tracker hline .strays)
    · exact .single (.tracker hline .strays)

theorem State.countLoss_acts {t : Tag} {k : Lane} : Acts c s (s.countLoss t k) := by
  have hlosses : min 15 ((s.eyes.get k).losses + 1) ≤ 15 := Nat.min_le_left _ _
  unfold State.countLoss
  simp only []
  split
  · split
    · exact (State.eye_acts (.inl hlosses)).trans State.occur_acts
    · exact State.eye_acts (.inl hlosses)
  · exact .refl

theorem State.closeLost_acts (hline : s.onLine = true) (e : Entry) : Acts c s (s.closeLost e) := by
  have hleft : Acts c s { s with tracker := s.tracker.remove e } := .single (.tracker hline .remove)
  have hlost := (hleft.trans (State.add_acts
    (n := .loss e.piece.tag e.piece.mask e.piece.flags.batchClose) (age := 0) (by simp [Notice.code]))).trans
    (State.occur_acts (o := ⟨.lost, some e.piece.tag, soleLane e.piece.mask, detail16 e.remaining⟩))
  have hcounted := hlost.trans (acts_foldl (f := fun t k => t.countLoss e.piece.tag k)
    (fun _ _ => State.countLoss_acts) (laneList e.piece.mask) _)
  unfold State.closeLost
  simp only []
  split
  · exact hcounted.trans State.lostBatchClose_acts
  · exact hcounted

theorem State.passUnverified_acts (hline : s.onLine = true) (e : Entry) : Acts c s (s.passUnverified e) := by
  have hleft : Acts c s { s with tracker := s.tracker.remove e } := .single (.tracker hline .remove)
  unfold State.passUnverified
  simp only []
  split
  · exact hleft.trans (State.add_acts (passOf_code _ _))
  · exact hleft.trans State.sortPiece_acts
  · exact hleft
  · exact hleft

theorem State.closeEntry_acts (hline : s.onLine = true) (e : Entry) : Acts c s (s.closeEntry e) := by
  unfold State.closeEntry
  split
  · exact State.closeLost_acts hline e
  · exact State.passUnverified_acts hline e

theorem State.closeWindows_acts (hline : s.onLine = true) : Acts c s s.closeWindows :=
  acts_foldl_onLine (fun _ x h => State.closeEntry_acts h x) State.closeEntry_within _ hline

theorem State.takeOrphans_acts (hline : s.onLine = true) {ks : List Lane} : Acts c s (s.takeOrphans ks) :=
  .head (.tracker hline .strays) (acts_foldl (fun _ _ => State.matchedSighting_acts) ks _)

theorem State.matchedSightings_tracker (ks : List Lane) (u : State) :
    (ks.foldl State.matchedSighting u).tracker = u.tracker := by
  induction ks generalizing u with
  | nil => rfl
  | cons k ks ih => exact ih _

theorem State.takeOrphans_entries (s : State) (ks : List Lane) :
    (s.takeOrphans ks).tracker.entries = s.tracker.entries := by
  rw [State.takeOrphans, State.matchedSightings_tracker]

/-- The tolerances of an announcement are in their range (R76). -/
def Announcement.InRange (a : Announcement) : Prop := a.early ≤ 2047 ∧ a.late ≤ 2047

theorem tolerance_le (fixed perMille : Nat) (o : Int) : tolerance fixed perMille o ≤ 2047 := Nat.min_le_left _ _

theorem dropAnnounces_inRange {im : Image} {o : Int} {t : Tag} {p : Nat} {m : LaneSet} {b : Bool} {l : Nat}
    {st : Stamp} : (dropAnnounces im o t p m b l st).InRange := ⟨tolerance_le _ _ _, tolerance_le _ _ _⟩

theorem passAnnounces_inRange {im : Image} {o : Int} {t : Tag} {p : Nat} {m : LaneSet} {f : Flags} {l : Nat}
    {st : Stamp} : (passAnnounces im o t p m f l st).InRange := ⟨tolerance_le _ _ _, tolerance_le _ _ _⟩

theorem State.claimed_acts (hline : s.onLine = true) {a : Announcement} (ha : a.InRange)
    (hnew : ∀ x ∈ s.tracker.entries, x.piece.tag ≠ a.piece.tag) {ks : List Lane} {t : Nat} :
    Acts c s (s.claimed a ks t) := by
  unfold State.claimed
  simp only []
  split
  · exact (State.takeOrphans_acts hline).trans State.passageEnd_acts
  · split
    next hroom =>
      refine (State.takeOrphans_acts hline).tail (.tracker ((s.takeOrphans_within ks).onLine.trans hline) ?_)
      refine .insert ha.1 ha.2 ?_ ?_ <;> rw [s.takeOrphans_entries]
      · exact hroom
      · exact hnew
    next => exact State.occur_acts

theorem State.receiveLate_acts (hline : s.onLine = true) {a : Announcement} (ha : a.InRange)
    (hnew : ∀ x ∈ s.tracker.entries, x.piece.tag ≠ a.piece.tag) : Acts c s (s.receiveLate a) := by
  unfold State.receiveLate
  split
  · exact State.occur_acts
  · split
    next hroom => exact .single (.tracker hline (.insert ha.1 ha.2 hroom hnew))
    next => exact State.occur_acts

theorem State.receiveOrder_acts (hline : s.onLine = true) {a : Announcement} (ha : a.InRange) :
    Acts c s (s.receiveOrder a) := by
  unfold State.receiveOrder
  split
  · exact State.occur_acts
  · split
    next e hfind =>
      split
      · exact .single (.tracker hline (.refresh (e := a.entry none) ha.1 ha.2 hfind))
      · exact .refl
    next hfind =>
      have hnew := Tracker.find_none hfind
      split
      · exact State.claimed_acts hline ha hnew
      · exact State.receiveLate_acts hline ha hnew

theorem State.trackDrop_acts (hline : s.onLine = true) {i : Nat} {o : Int} {t : Tag} {p : Nat} {m : LaneSet} {b : Bool}
    {l : Nat} {st : Stamp} : Acts c s (s.trackDrop i o t p m b l st) := by
  unfold State.trackDrop
  simp only []
  split
  · exact State.occur_acts
  · exact State.receiveOrder_acts hline dropAnnounces_inRange

theorem State.trackPass_acts (hline : s.onLine = true) {i : Nat} {o : Int} {t : Tag} {p : Nat} {m : LaneSet} {f : Flags}
    {l : Nat} {st : Stamp} : Acts c s (s.trackPass i o t p m f l st) := by
  unfold State.trackPass
  simp only []
  split
  · exact State.occur_acts
  · exact State.receiveOrder_acts hline passAnnounces_inRange

theorem State.trackLoss_acts (hline : s.onLine = true) {t : Tag} {b : Bool} : Acts c s (s.trackLoss t b) := by
  unfold State.trackLoss
  split
  · exact .refl
  next e _ =>
    have hleft : Acts c s { s with tracker := s.tracker.remove e } := .single (.tracker hline .remove)
    simp only []
    split
    · exact hleft.trans State.lostBatchClose_acts
    · exact hleft

/-! ### Feed unit and hole unit (chapters 7 and 8) -/

/-- The feed unit's work on the line, but for its map and its records. -/
theorem State.feedWork_acts (hline : s.onLine = true) {g : FeedUnit} (hmap : g.map = s.feed.map)
    (hqueue : g.queue.length ≤ s.feed.queue.length) (hpatience : g.patience ≤ 65535 ∨ g.patience = s.feed.patience) :
    Acts c s { s with feed := g } :=
  .single (.feed (.inl hline) (.work hmap hqueue hpatience))

theorem State.restartPatience_acts (hline : s.onLine = true) : Acts c s s.restartPatience :=
  State.feedWork_acts hline rfl le_rfl (.inl (Nat.zero_le _))

theorem State.insertStretch_acts (hline : s.onLine = true) {x : Stretch} (hx : x.kind ≠ .ownHole) :
    Acts c s (s.insertStretch x) := by
  unfold State.insertStretch
  split
  next hroom => exact .single (.feed (.inl hline) (.stretch (mapHasRoom_iff.mp hroom) hx))
  next => exact State.occur_acts

theorem State.withdrawEnded_acts (hline : s.onLine = true) : Acts c s s.withdrawEnded := by
  unfold State.withdrawEnded
  split
  · exact .single (.askWithdraw hline)
  · exact .refl

/-- An abandoned HOLE that is still in send leaves the frame state as it is (R151). -/
theorem State.askWithdraw_of_inSend (hframe : s.hole.frame = .abandoned) (h : s.withdraw.2 = false) :
    s.askWithdraw = s.withdraw.1 := by
  have hhole : { s.withdraw.1 with hole := ⟨s.hole.fit, .abandoned⟩ } = s.withdraw.1 := by rw [← hframe]; rfl
  rw [State.askWithdraw, h]
  exact hhole

theorem State.retryWithdraw_acts (hline : s.onLine = true) : Acts c s s.retryWithdraw := by
  have hask : Acts c s s.askWithdraw := .single (.askWithdraw hline)
  unfold State.retryWithdraw
  split
  next hframe =>
    simp only []
    split
    next h => simpa only [State.askWithdraw, h, if_true] using hask
    next h => rwa [State.askWithdraw_of_inSend hframe (by simpa using h)] at hask
  next => exact .refl

theorem State.useOwnHole_acts (hline : s.onLine = true) : Acts c s s.useOwnHole := by
  unfold State.useOwnHole
  split
  · refine .head (.dropOwnHole hline) (State.withdrawEnded_acts ?_)
    exact hline
  · exact .refl

theorem State.drop_acts (hline : s.onLine = true) (p : Piece) : Acts c s (s.drop p) := by
  have hstarted : Acts c s { s with
      feed := { s.feed with
        releaseTimer := s.startTimer (Image.releaseMs s.image), handshake := .clearing, lastDropped := some p.tag } } :=
    State.feedWork_acts hline rfl le_rfl (.inr rfl)
  unfold State.drop
  simp only []
  have hline1 : State.onLine { s with
      feed := { s.feed with
        releaseTimer := s.startTimer (Image.releaseMs s.image), handshake := .clearing, lastDropped := some p.tag } }
      = true := hline
  generalize ({ s with feed := _ } : State) = u1 at hstarted hline1
  have hentered := hstarted.trans (State.insertStretch_acts (x := ownDropStretch (Image.address s.image) p) hline1
    (by simp [ownDropStretch]))
  have hline2 := (u1.insertStretch_within (ownDropStretch (Image.address s.image) p)).onLine.trans hline1
  generalize u1.insertStretch _ = u2 at hentered hline2
  have hunlatched : Acts c s { u2 with feed := { u2.feed with batchLatch := false } } :=
    hentered.trans (State.feedWork_acts hline2 rfl le_rfl (.inr rfl))
  have hadded := hunlatched.trans (State.add_acts (age := 0) (dropOf_code p u2.feed.batchLatch))
  have hline3 := (State.add_quiet { u2 with feed := { u2.feed with batchLatch := false } }
    (dropOf p u2.feed.batchLatch) 0).onLine.trans hline2
  generalize State.add _ _ _ = u3 at hadded hline3
  have hleft : Acts c s { u3 with feed := { u3.feed with queue := u3.feed.queue.drop 1, ready := false } } :=
    hadded.trans (State.feedWork_acts hline3 rfl (by simp) (.inr rfl))
  have hline4 : State.onLine { u3 with feed := { u3.feed with queue := u3.feed.queue.drop 1, ready := false } } = true :=
    hline3
  exact (hleft.trans (State.useOwnHole_acts hline4)).trans
    (State.restartPatience_acts ((State.useOwnHole_within _).onLine.trans hline4))

theorem State.onLine_of_lineAllows (h : s.lineAllows = true) : s.onLine = true := by
  obtain ⟨hstate, -⟩ := State.lineAllows_iff.mp h
  simp [State.onLine, hstate]

theorem State.evalDrop_acts : Acts c s s.evalDrop := by
  unfold State.evalDrop
  split
  · split
    · exact .refl
    · split
      next hdrop => exact State.drop_acts (State.onLine_of_lineAllows (State.dropTest_iff.mp hdrop).1) _
      next => exact .refl
  · exact .refl

theorem reviewDrop_acts {before : State} : Acts c s (reviewDrop before s) := by
  unfold reviewDrop
  split
  · exact State.evalDrop_acts
  · exact .refl

theorem State.insertStretch_of_room {x : Stretch} (h : mapHasRoom s.feed.map = true) :
    s.insertStretch x = { s with feed := { s.feed with map := Machine.insertStretch x s.feed.map } } := by
  rw [State.insertStretch, if_pos h]

theorem State.insertStretch_of_full {x : Stretch} (h : ¬ mapHasRoom s.feed.map = true) :
    s.insertStretch x = s.occur ⟨.listFull, x.tag, soleLane x.mask, detail16 x.head⟩ := by
  rw [State.insertStretch, if_neg h]

theorem State.openHole_acts (hline : s.onLine = true) (hown : s.ownHole = none) (hframe : s.hole.frame = .none)
    {p : Piece} {f : Fit} {a : Int} : Acts c s (s.openHole p f a) := by
  unfold State.openHole
  simp only []
  split
  next hroom =>
    rw [State.insertStretch_of_room hroom]
    exact State.add_acts_of (.single (.openHole hline (mapHasRoom_iff.mp hroom) hown hframe rfl rfl))
  next hfull =>
    rw [State.insertStretch_of_full hfull]
    exact State.occur_acts.trans (State.restartPatience_acts ((State.occur_quiet _ _).onLine.trans hline))

theorem State.lookForHole_acts (hline : s.onLine = true) (hown : s.ownHole = none) (hframe : s.hole.frame = .none)
    {p : Piece} : Acts c s (s.lookForHole p) := by
  unfold State.lookForHole
  simp only []
  split
  · exact State.restartPatience_acts hline
  · exact State.openHole_acts hline hown hframe

/-- A withdraw tried again changes the queue and the frame state alone (R151). -/
theorem State.retryWithdraw_keeps (s : State) :
    s.retryWithdraw.feed = s.feed ∧ s.retryWithdraw.hole.fit = s.hole.fit := by
  unfold State.retryWithdraw
  split
  · simp only []
    split <;> exact ⟨rfl, rfl⟩
  · exact ⟨rfl, rfl⟩

theorem State.chooseHole_acts (hline : s.onLine = true) {p : Piece} : Acts c s (s.chooseHole p) := by
  unfold State.chooseHole
  split
  · exact .refl
  next hown =>
    have hown : s.ownHole = none := by simpa using hown
    split
    · simp only []
      have hretry : Acts c s s.retryWithdraw := State.retryWithdraw_acts hline
      split
      next hframe =>
        refine hretry.trans (State.lookForHole_acts (s.retryWithdraw_within.onLine.trans hline) ?_ hframe)
        rwa [State.ownHole, s.retryWithdraw_keeps.1]
      next => exact hretry
    next hframe => exact State.lookForHole_acts hline hown hframe
    · exact .refl

theorem State.addPatience_acts {d : Int} : Acts c s (s.addPatience d) := by
  unfold State.addPatience
  split
  · exact .refl
  · split
    next h =>
      obtain ⟨-, hallows, -⟩ := h
      have hline := State.onLine_of_lineAllows hallows
      have hadded : Acts c s { s with feed := { s.feed with patience := addTravel s.feed.patience d } } :=
        State.feedWork_acts hline rfl le_rfl (.inl (addTravel_le _ _))
      have hline' : State.onLine { s with feed := { s.feed with patience := addTravel s.feed.patience d } } = true :=
        hline
      simp only []
      split
      · exact hadded.trans (State.chooseHole_acts hline')
      · exact hadded
    next => exact .refl

theorem State.withdrawEnded_feed (s : State) : s.withdrawEnded.feed = s.feed := by
  unfold State.withdrawEnded
  split <;> rfl

theorem ownHoleOf_withoutOwnHole (m : List Stretch) : ownHoleOf (withoutOwnHole m) = none := by
  simp [ownHoleOf, withoutOwnHole]

theorem State.spendHole_acts (hline : s.onLine = true) : Acts c s s.spendHole := by
  unfold State.spendHole
  split
  · have hline' : s.dropOwnHole.onLine = true := hline
    exact (Relation.ReflTransGen.head (.dropOwnHole hline) (State.withdrawEnded_acts hline')).trans
      (State.restartPatience_acts ((State.withdrawEnded_within _).onLine.trans hline'))
  · exact .refl

/-- An own hole that has been spent is gone (R150). -/
theorem State.spendHole_holeSpent (s : State) : s.spendHole.holeSpent = false := by
  unfold State.spendHole
  split
  · have hown : State.ownHole s.dropOwnHole.withdrawEnded.restartPatience = none := by
      rw [State.ownHole, State.restartPatience, State.withdrawEnded_feed]
      exact ownHoleOf_withoutOwnHole _
    simp [State.holeSpent, hown]
  next h => simpa using h

theorem State.retryWithdraw_holeSpent (s : State) : s.retryWithdraw.holeSpent = s.holeSpent := by
  obtain ⟨hfeed, hfit⟩ := s.retryWithdraw_keeps
  rw [State.holeSpent, State.ownHole, hfeed, hfit]
  rfl

theorem Stretch.grow_kind (x : Stretch) (eyes : Quad Eye) : (x.grow eyes).kind = x.kind := by
  unfold Stretch.grow
  split <;> rfl

/-- A change of stretches that leaves their kinds alone leaves the own hole. -/
theorem ownHoles_map {f : Stretch → Stretch} (hf : ∀ x, (f x).kind = x.kind) (m : List Stretch) :
    ownHoles (m.map f) = ownHoles m := by
  simp only [ownHoles, List.filter_map, List.length_map, Function.comp_def, hf]

/-- The map with every stretch moved by d, and the growing ones grown (R127, R131). -/
def State.mapMoved (s : State) (d : Int) : State :=
  { s with feed := { s.feed with map := s.feed.map.map fun (x : Stretch) => (x.advance d).grow s.eyes } }

theorem State.mapMoved_acts (hline : s.onLine = true) {d : Int} : Acts c s (s.mapMoved d) := by
  refine .single (.feed (.inl hline) (.stretches (by simp) (ownHoles_map (fun x => ?_) _)))
  rw [Stretch.grow_kind]
  rfl

theorem State.moveMap_eq (s : State) (d : Int) : s.moveMap d =
    if 0 < d then
      { (s.mapMoved d).spendHole.retryWithdraw with
        feed := { (s.mapMoved d).spendHole.retryWithdraw.feed with
          map := (s.mapMoved d).spendHole.retryWithdraw.feed.map.filter fun x => decide (0 ≤ x.tail) } }
    else (s.mapMoved d).retryWithdraw := by
  unfold State.moveMap
  by_cases h : 0 < d <;> simp only [h, if_true, if_false] <;> rfl

theorem State.moveMap_acts (hline : s.onLine = true) {d : Int} : Acts c s (s.moveMap d) := by
  have hmoved : Acts c s (s.mapMoved d) := State.mapMoved_acts hline
  have hline1 : (s.mapMoved d).onLine = true := hline
  rw [State.moveMap_eq]
  split
  · have hline2 := (s.mapMoved d).spendHole_within.onLine.trans hline1
    refine ((hmoved.trans (State.spendHole_acts hline1)).trans (State.retryWithdraw_acts hline2)).tail
      (.stretchesPass ((State.retryWithdraw_within _).onLine.trans hline2) ?_)
    rw [State.retryWithdraw_holeSpent, State.spendHole_holeSpent]
  · exact hmoved.trans (State.retryWithdraw_acts hline1)

theorem State.endGrowing_of_empty {k : Lane} (h : s.feed.map = []) : s.endGrowing k = s := by
  have hfeed : s.feed = { s.feed with map := [] } := by rw [← h]
  rw [State.endGrowing, h, List.map_nil, ← hfeed]

theorem State.endGrowing_acts {k : Lane} : Acts c s (s.endGrowing k) := by
  by_cases hmap : s.feed.map = []
  · rw [State.endGrowing_of_empty hmap]
  · have hwork : s.feed ≠ .cleared s.feed.spreader := fun h => hmap (by rw [h]; rfl)
    refine .single (.feed (.inr hwork) (.stretches (by simp) (ownHoles_map (fun x => ?_) _)))
    split <;> rfl

theorem State.feedLeading_acts (hline : s.onLine = true) {k : Lane} : Acts c s (s.feedLeading k) := by
  unfold State.feedLeading
  split
  · exact .refl
  · refine (State.insertStretch_acts hline ?_).trans State.occur_acts
    simp

theorem State.feedDrop_acts (hline : s.onLine = true) {a i : Nat} {o : Int} {t : Tag} {p : Nat} {m : LaneSet} {l : Nat}
    {st : Stamp} : Acts c s (s.feedDrop a i o t p m l st) := by
  unfold State.feedDrop
  simp only []
  split
  · exact .refl
  · split
    · exact State.occur_acts
    · split
      · exact State.occur_acts
      · split
        · exact .refl
        · refine State.insertStretch_acts hline ?_
          simp

theorem State.yieldTo_acts (hline : s.onLine = true) {x : Stretch} (hx : x.kind ≠ .ownHole) :
    Acts c s (s.yieldTo x) := by
  have hline' : s.askWithdraw.dropOwnHole.onLine = true := hline
  have hended : Acts c s s.askWithdraw.dropOwnHole :=
    .head (.askWithdraw hline) (.single (.dropOwnHole hline'))
  exact (hended.trans (State.insertStretch_acts hline' hx)).trans
    (State.restartPatience_acts ((State.insertStretch_within _ _).onLine.trans hline'))

theorem ownHoles_withoutReservation (m : List Stretch) (a : Nat) : ownHoles (withoutReservation m a) = ownHoles m := by
  unfold ownHoles withoutReservation
  rw [List.filter_filter]
  congr 1
  refine List.filter_congr fun x _ => ?_
  cases hk : x.kind <;> simp

theorem State.placeHole_acts (hline : s.onLine = true) {a : Nat} {m : LaneSet} {h : Int} {l : Nat} :
    Acts c s (s.placeHole a m h l) := by
  have hformer : Acts c s { s with feed := { s.feed with map := withoutReservation s.feed.map a } } :=
    .single (.feed (.inl hline) (.stretches (List.length_filter_le _ _) (ownHoles_withoutReservation _ _)))
  have hline' : State.onLine { s with feed := { s.feed with map := withoutReservation s.feed.map a } } = true := hline
  unfold State.placeHole
  simp only []
  split
  · exact hformer
  · split
    · exact hformer
    · split
      · refine hformer.trans (State.yieldTo_acts hline' ?_)
        simp
      · refine hformer.trans (State.insertStretch_acts hline' ?_)
        simp

theorem State.feedHole_acts (hline : s.onLine = true) {a i : Nat} {o : Int} {m : LaneSet} {h l : Nat} {st : Stamp} :
    Acts c s (s.feedHole a i o m h l st) := by
  unfold State.feedHole
  simp only []
  split
  · exact .refl
  · split
    · exact State.occur_acts
    · split
      · exact State.occur_acts
      · split
        · exact State.occur_acts
        · exact State.placeHole_acts hline

theorem State.createRecord_acts (hdraw : mayDraw c) (hline : s.onLine = true) (hroom : s.feed.queue.length < 2)
    {p : Nat} : Acts c s (s.createRecord p) := by
  have hline' : s.draw.2.onLine = true := hline
  exact .head (.control (.draw hdraw hline)) (.single (.feed (s := s.draw.2) (.inl hline') (.record hroom)))

theorem State.presentHead_acts (hdraw : mayDraw c) (hline : s.onLine = true) : Acts c s s.presentHead := by
  have hready (u : State) (hu : u.onLine = true) (h : Acts c s u) :
      Acts c s (State.evalDrop { u with feed := { u.feed with ready := true, handshake := .ready } }) :=
    (h.trans (State.feedWork_acts hu (g := { u.feed with ready := true, handshake := .ready }) rfl le_rfl
      (.inr rfl))).trans State.evalDrop_acts
  unfold State.presentHead
  simp only []
  split
  next hempty =>
    have hroom : s.feed.queue.length < 2 := by simp [List.isEmpty_iff.mp hempty]
    exact hready _ ((State.occur_quiet _ _).onLine.trans hline)
      ((State.createRecord_acts hdraw hline hroom).trans State.occur_acts)
  next => exact hready s hline .refl

end Sys2Proof.Machine
end

section
/-! PROOFS. The travel advance, the edges, station control, the line port's frames, and so every command, are made of
acts. -/

namespace Sys2Proof.Machine

open Sys2Proof

variable {c : Instr} {s : State}

/-! ### Travel and edges (chapters 1 and 6) -/

theorem State.laneStuck_acts (hline : s.onLine = true) {k : Lane} : Acts c s (s.laneStuck k) := by
  unfold State.laneStuck
  split
  · exact State.endGrowing_acts
  · exact State.unblock_acts hline
  · exact State.unblock_acts hline
  · exact .refl

theorem State.testStuck_acts (hline : s.onLine = true) (k : Lane) : Acts c s (s.testStuck k) := by
  unfold State.testStuck
  simp only []
  split
  · have heye : Acts c s { s with eyes := s.eyes.set k { s.eyes.get k with state := .stuck } } :=
      State.eye_acts (.inr rfl)
    have hline' : State.onLine { s with eyes := s.eyes.set k { s.eyes.get k with state := .stuck } } = true := hline
    exact (heye.trans State.occur_acts).trans (State.laneStuck_acts ((State.occur_quiet _ _).onLine.trans hline'))
  · exact .refl

theorem State.forwardEvents_acts (hdraw : mayDraw c) (hline : s.onLine = true) : Acts c s s.forwardEvents := by
  have hstuck : Acts c s (lanes.foldl State.testStuck s) :=
    acts_foldl_onLine (fun _ k h => State.testStuck_acts h k) State.testStuck_within _ hline
  have hline1 : (lanes.foldl State.testStuck s).onLine = true :=
    (within_foldl State.testStuck State.testStuck_within lanes s).onLine.trans hline
  unfold State.forwardEvents
  simp only []
  split
  · exact (hstuck.trans (State.adoptPastGrace_acts hdraw hline1 4)).trans
      (State.closeWindows_acts ((State.adoptPastGrace_within _ _).onLine.trans hline1))
  · exact hstuck

theorem State.moveFeed_acts (hline : s.onLine = true) {d : Int} : Acts c s (s.moveFeed d) := by
  unfold State.moveFeed
  split
  · exact State.moveMap_acts hline
  · exact .refl

theorem State.moveFeed_onLine (s : State) (d : Int) : (s.moveFeed d).onLine = s.onLine := by
  unfold State.moveFeed
  split
  · exact (State.moveMap_within _ _).onLine
  · rfl

theorem State.travelAdvance_acts (hdraw : mayDraw c) (hline : s.onLine = true) {d : Int} :
    Acts c s (s.travelAdvance d) := by
  have hline1 : (s.moveAll d).onLine = true := hline
  have hmoved : Acts c s ((s.moveAll d).moveFeed d) := .head (.moveAll hline) (State.moveFeed_acts hline1)
  have hline2 : ((s.moveAll d).moveFeed d).onLine = true := (State.moveFeed_onLine _ _).trans hline1
  have hevents : Acts c s (if 0 < d then ((s.moveAll d).moveFeed d).forwardEvents else (s.moveAll d).moveFeed d) := by
    split
    · exact hmoved.trans (State.forwardEvents_acts hdraw hline2)
    · exact hmoved
  unfold State.travelAdvance
  simp only []
  generalize (if 0 < d then ((s.moveAll d).moveFeed d).forwardEvents else (s.moveAll d).moveFeed d) = u at hevents ⊢
  split
  · split
    · exact (hevents.trans State.evalDrop_acts).trans State.addPatience_acts
    · exact hevents.trans State.evalDrop_acts
  · exact hevents

/-- The gap measurement takes an edge in JOINING and RUNNING (R153). -/
theorem State.gapEdge_acts {u : State} {g : SortUnit} (h : Acts c s u) (hg : SortAct u.image u.sort g) :
    Acts c s (if u.onLine then { u with sort := g } else u) := by
  split
  next hline => exact h.tail (.sort hline hg)
  next => exact h

theorem State.trackLeadingIf_acts (hdraw : mayDraw c) {k : Lane} :
    Acts c s (if s.running then s.trackLeading k else s) := by
  split
  next h => exact State.trackLeading_acts hdraw (State.onLine_of_running h)
  next => exact .refl

theorem State.unblockIf_acts {k : Lane} : Acts c s (if s.running then s.unblock k false else s) := by
  split
  next h => exact State.unblock_acts (State.onLine_of_running h)
  next => exact .refl

theorem State.handLeading_acts (hdraw : mayDraw c) {k : Lane} : Acts c s (s.handLeading k) := by
  unfold State.handLeading
  split
  · exact State.trackLeadingIf_acts hdraw
  · exact State.gapEdge_acts (State.trackLeadingIf_acts hdraw) .leadingEdge
  · split
    next h => exact (State.feedLeading_acts (State.onLine_of_running h)).trans State.evalDrop_acts
    next => exact .refl
  · exact .refl

theorem State.handTrailing_acts {k : Lane} : Acts c s (s.handTrailing k) := by
  unfold State.handTrailing
  split
  · exact State.unblockIf_acts
  · exact State.gapEdge_acts State.unblockIf_acts .trailingEdge
  · exact State.endGrowing_acts.trans State.evalDrop_acts
  · exact .refl

theorem State.levelChange_acts (hdraw : mayDraw c) {k : Lane} : Acts c s (s.levelChange k) := by
  have hedge {x : Eye} (hx : x.losses = (s.eyes.get k).losses) :
      Acts c s (if (s.eyes.get k).blocked then State.handTrailing { s with eyes := s.eyes.set k x } k
        else State.handLeading { s with eyes := s.eyes.set k x } k) := by
    have heye : Acts c s { s with eyes := s.eyes.set k x } := State.eye_acts (.inr hx)
    split
    · exact heye.trans State.handTrailing_acts
    · exact heye.trans (State.handLeading_acts hdraw)
  unfold State.levelChange
  simp only []
  split
  · exact State.eye_acts (.inr rfl)
  · exact (State.eye_acts (.inl (Nat.zero_le _))).trans State.evalDrop_acts
  · exact hedge rfl
  · exact hedge rfl

theorem State.takeLevel_acts (hdraw : mayDraw c) {k : Lane} : Acts c s (s.takeLevel k) := by
  unfold State.takeLevel
  split
  · exact .refl
  · exact State.levelChange_acts hdraw

/-! ### Counts and the encoder (chapter 1) -/

theorem State.travel_acts (hline : s.onLine = true) {t : TravelUnit} : Acts c s { s with travel := t } :=
  .single (.travel (.inl hline))

theorem State.accumulate_acts (hdraw : mayDraw c) (hline : s.onLine = true) {forward : Bool} :
    Acts c s (s.accumulate forward) := by
  have hline' (n : Nat) : State.onLine { s with travel := { s.travel with fraction := n } } = true := hline
  unfold State.accumulate
  simp only []
  split
  · exact State.travel_acts hline
  · exact (State.travel_acts hline).trans (State.travelAdvance_acts hdraw (hline' _))

theorem State.accumulate_onLine (s : State) (forward : Bool) : (s.accumulate forward).onLine = s.onLine := by
  unfold State.accumulate
  simp only []
  split
  · rfl
  · exact (State.travelAdvance_within _ _).onLine

theorem State.encoderReturns_acts (hline : s.onLine = true) : Acts c s s.encoderReturns :=
  .trans (State.travel_acts hline) reviewDrop_acts

theorem State.encoderReturns_onLine (s : State) : s.encoderReturns.onLine = s.onLine :=
  (reviewDrop_within _ _).onLine

/-- The encoder-loss timer restarts where a condition asks for it (R8, R10). -/
theorem State.restartLossIf_acts {u : State} {b : Bool} (h : Acts c s u) (hline : u.onLine = true) :
    Acts c s (if b then u.restartLoss else u) := by
  split
  · exact h.trans (State.travel_acts hline)
  · exact h

theorem State.countOnLine_acts (hdraw : mayDraw c) (hline : s.onLine = true) {forward : Bool} :
    Acts c s (s.countOnLine forward) := by
  unfold State.countOnLine
  simp only []
  split
  · have hline1 := s.encoderReturns_onLine.trans hline
    exact State.restartLossIf_acts ((State.encoderReturns_acts hline).trans (State.accumulate_acts hdraw hline1))
      ((State.accumulate_onLine _ _).trans hline1)
  · exact State.restartLossIf_acts (State.accumulate_acts hdraw hline) ((State.accumulate_onLine _ _).trans hline)

theorem State.takeCount_acts (hdraw : mayDraw c) {forward : Bool} : Acts c s (s.takeCount forward) := by
  unfold State.takeCount
  simp only []
  generalize (if forward then s.travel.count + 1 else s.travel.count - 1) = n
  have hcount : Acts c s { s with travel := { s.travel with count := n } } :=
    .single (.travel (.inr ⟨rfl, rfl, .inl rfl⟩))
  split
  next hline => exact hcount.trans (State.countOnLine_acts hdraw hline)
  next => exact hcount

theorem Timer.isRunning_iff {t : Timer} : t.isRunning = true ↔ t ≠ .stopped := by
  cases t <;> simp [Timer.isRunning]

theorem State.encoderLost_acts (htimer : s.travel.lossTimer ≠ .stopped) : Acts c s s.encoderLost := by
  have hlost : Acts c s { s with
      travel := { s.travel with lost := true, lossTimer := .stopped }, tracker := s.tracker.degrade } :=
    .single (.encoderLost htimer)
  exact (hlost.trans (followParkBegin_acts (before := s) rfl)).trans State.occur_acts

/-! ### Station control (chapter 4) -/

theorem State.peerIf_acts {b : Bool} {cause ident : Nat} : Acts c s (s.peerIf b cause ident) :=
  State.occurIf_acts _ _

theorem State.unhalt_acts {a : Nat} (hline : s.onLine = true) (hpeer : a ≠ Image.address s.image) :
    Acts c s (s.unhalt a) := .single (.control (.peerResume hline hpeer))

theorem State.takePresent_acts (hline : s.onLine = true) {a : Nat} (hpeer : a ≠ Image.address s.image)
    {i r n sum : Nat} {x d : Bool} : Acts c s (s.takePresent a i r n sum x d) := by
  unfold State.takePresent
  simp only []
  have hpeers (b1 b2 b3 b4 : Bool) : Acts c s ((((s.peerIf b1 1 i).peerIf b2 2 i).peerIf b3 3 i).peerIf b4 7 i) :=
    ((State.peerIf_acts.trans State.peerIf_acts).trans State.peerIf_acts).trans State.peerIf_acts
  have hquiets (b1 b2 b3 b4 : Bool) : Quiet s ((((s.peerIf b1 1 i).peerIf b2 2 i).peerIf b3 3 i).peerIf b4 7 i) :=
    (((State.peerIf_quiet _ _ _ _).trans (State.peerIf_quiet _ _ _ _)).trans (State.peerIf_quiet _ _ _ _)).trans
      (State.peerIf_quiet _ _ _ _)
  generalize (sum != Image.profileSum _) = b2
  have hacts := hpeers (n != Image.laneCount s.image) b2 x (decide (r < 1) || decide (3 < r))
  have hquiet := hquiets (n != Image.laneCount s.image) b2 x (decide (r < 1) || decide (3 < r))
  generalize State.peerIf _ _ 7 i = u at hacts hquiet
  have hlineU : u.onLine = true := hquiet.onLine.trans hline
  split
  · exact hacts.trans (State.resendHalt_acts hlineU)
  · have hline' : (u.unhalt a).onLine = true := hlineU
    refine (hacts.trans (State.unhalt_acts hlineU ?_)).trans (State.resendHalt_acts hline')
    rwa [hquiet.image]

theorem State.takeHalt_acts (hline : s.onLine = true) {a : Nat} (haddress : isAddress a)
    (hpeer : a ≠ Image.address s.image) {i r : Nat} {t : Option Tag} : Acts c s (s.takeHalt a i r t) := by
  unfold State.takeHalt
  split
  · exact .single (.control (.peerHalt hline haddress hpeer))
  · exact State.occur_acts

theorem State.defend_acts (hline : s.onLine = true) {i : Nat} {n : Notice} : Acts c s (s.defend i n) := by
  unfold State.defend
  split
  · simp only []
    exact (State.occur_acts.trans (State.resendHalt_acts ((State.occur_quiet _ _).onLine.trans hline))).trans
      (State.add_acts (State.presentNotice_code _))
  all_goals exact State.occur_acts

theorem State.takeOwnAddress_acts (hclash : mayClash c) {i : Nat} {n : Notice} : Acts c s (s.takeOwnAddress i n) := by
  unfold State.takeOwnAddress
  split
  next hstate => exact .single (.move (.lockOut hclash hstate))
  next hstate => exact State.defend_acts (by simp [State.onLine, hstate])
  all_goals exact .refl

theorem State.joinLine_acts (hc : c = .join) (hstate : s.control.state = .configured)
    (hdeparture : s.control.departure = false) : Acts c s s.joinLine :=
  .head (.move (.join hc hstate hdeparture)) (State.add_acts (State.presentNotice_code _))

theorem State.leaveHalt_acts : Acts c s s.leaveHalt := by
  unfold State.leaveHalt
  split
  next hout => exact State.announceQuiet_acts_of (.single (.control (.resume hout)))
  next => exact .refl

theorem State.leaveLine_acts (hc : c = .leave) (hline : s.onLine = true) : Acts c s s.leaveLine :=
  State.leaveHalt_acts.tail (.move (.leave hc (s.leaveHalt_quiet.onLine.trans hline)))

theorem State.endOwnHalt_acts (hout : s.ownHaltOut = true) : Acts c s s.endOwnHalt :=
  State.announce_acts_of (.single (.control (.resume hout)))

theorem State.announcementSent_acts (hc : c = .transmitCompletion) : Acts c s s.announcementSent := by
  have hdone : Acts c s { s with control := { s.control with queued := s.control.owed, owed := none } } :=
    .single (.control .completed)
  unfold State.announcementSent
  split
  next howed =>
    have hsame : ({ s.control with queued := s.control.owed, owed := none } : StationControl)
        = { s.control with queued := none } := by rw [howed, ← howed]
    rw [hsame] at hdone
    unfold State.endDeparture
    split
    next h =>
      simp only [Bool.and_eq_true] at h
      obtain ⟨⟨hdeparture, -⟩, -⟩ := h
      exact hdone.tail (.move (.endDeparture hc hdeparture rfl howed))
    next => exact hdone
  next k howed =>
    rw [howed] at hdone
    exact hdone.trans (State.add_acts (StationControl.announcement_code _ _))

theorem State.haltAtEntry_acts (hrunning : s.running = true) : Acts c s s.haltAtEntry := by
  unfold State.haltAtEntry
  split
  · exact .refl
  · exact State.raiseOwnHalt_acts hrunning

/-! ### The line port (chapter 3) -/

theorem LinePort.active_of_reads {p : LinePort} {failed : Bool} (h : p.reads = some failed) :
    p.active = true ∧ p.medium ≠ .sending := by
  unfold LinePort.reads at h
  split at h
  next hactive => exact ⟨hactive, fun hm => by simp [hm] at h⟩
  next => simp at h

theorem State.waitIdle_acts {failed : Bool} (h : s.port.reads = some failed) : Acts c s s.waitIdle := by
  obtain ⟨hactive, hmedium⟩ := LinePort.active_of_reads h
  exact .single (.port (.medium hactive hmedium (by simp)))

theorem State.discardFault_acts {failed : Bool} {cause ident : Nat} : Acts c s (s.discardFault failed cause ident) := by
  unfold State.discardFault
  split
  · exact .refl
  · exact State.occur_acts

theorem State.handDrop_acts (hline : s.onLine = true) {a i : Nat} {o : Int} {t : Tag} {p : Nat} {m : LaneSet} {b : Bool}
    {l : Nat} {st : Stamp} : Acts c s (s.handDrop a i o t p m b l st) := by
  unfold State.handDrop
  split
  · exact State.feedDrop_acts hline
  · exact State.trackDrop_acts hline
  · exact State.trackDrop_acts hline
  · exact .refl

theorem State.handNotice_acts (hline : s.onLine = true) {a : Nat} (haddress : isAddress a)
    (hpeer : a ≠ Image.address s.image) {i : Nat} {n : Notice} : Acts c s (s.handNotice a i n) := by
  cases n with
  | halt r t => exact State.takeHalt_acts hline haddress hpeer
  | resume => exact State.unhalt_acts hline hpeer
  | present r n m x d => exact State.takePresent_acts hline hpeer
  | loss t m b =>
    unfold State.handNotice
    simp only []
    split
    · exact State.trackLoss_acts hline
    · exact .refl
  | pass t p m f l st =>
    unfold State.handNotice
    simp only []
    split
    · split
      · exact State.trackPass_acts hline
      · exact .refl
    · exact .refl
  | drop t p m b l st =>
    unfold State.handNotice
    simp only []
    split
    · exact State.handDrop_acts hline
    · exact .refl
  | hole m h l st =>
    unfold State.handNotice
    simp only []
    split
    · split
      · exact State.feedHole_acts hline
      · exact .refl
    · exact .refl

theorem State.receive_acts (hclash : mayClash c) {ident : Nat} (haddress : isAddress (ident % 16)) {n : Notice} :
    Acts c s (s.receive ident n) := by
  unfold State.receive
  split
  · exact State.takeOwnAddress_acts hclash
  next hpeer =>
    split
    next hline => exact State.handNotice_acts hline haddress hpeer
    next => exact .refl

/-- A notice is judged to come from an address 1..15 (R46). -/
theorem isAddress_of_judge {f : Frame} {n : Notice} (h : judge f = .notice n) : isAddress (f.ident.toNat % 16) := by
  unfold judge at h
  simp only [] at h
  split_ifs at h with hcheck hkind hzero
  exact ⟨by omega, by omega⟩

theorem State.frameEnds_acts (hclash : mayClash c) {failed : Bool} (h : s.port.reads = some failed) {f : Frame} :
    Acts c s (s.frameEnds failed f) := by
  unfold State.frameEnds
  split
  · exact (State.waitIdle_acts h).trans State.discardFault_acts
  next n hjudge => exact (State.waitIdle_acts h).trans (State.receive_acts hclash (isAddress_of_judge hjudge))

theorem State.takeClash_acts (hclash : mayClash c) : Acts c s s.takeClash := by
  unfold State.takeClash
  split
  next hstate => exact .single (.move (.lockOut hclash hstate))
  all_goals exact .refl

/-- The port's part of a transmit failure, with the report of the 16th (R36, R38). -/
theorem State.failure_acts {x : Slot} (hx : s.port.inSend = some x) :
    Acts c s (if s.port.nextFailures = Config.offLineFailures then
      State.goOffLine { s with port := { s.port.backToWaiting with
        failures := s.port.nextFailures, medium := .following true } } x
      else { s with port := { s.port.backToWaiting with
        failures := s.port.nextFailures, medium := .following true } }) := by
  have hfailed : Acts c s { s with port := s.port.failed (s.startTimer Config.offLineMs) } :=
    .single (.port (.failure hx (by simp [State.startTimer])))
  split
  next hn =>
    simp only [LinePort.failed, hn, if_true] at hfailed
    rw [hn]
    exact hfailed.trans State.occur_acts
  next hn =>
    simp only [LinePort.failed, hn, if_false] at hfailed
    exact hfailed

theorem State.sendFailed_acts (hclash : mayClash c) {x : Slot} (hx : s.port.inSend = some x) :
    Acts c s (s.sendFailed x) := by
  have hfailed : Acts c s _ := State.failure_acts hx
  unfold State.sendFailed
  simp only []
  split
  · exact hfailed.trans (State.takeClash_acts hclash)
  · exact hfailed

theorem State.completion_acts (hc : c = .transmitCompletion) {x : Slot} (hx : s.port.inSend = some x) :
    Acts c s (State.takeCompletion { s with port := s.port.sent } x.notice) := by
  have hsent (hkind : x.notice.code ≠ 6) : Acts c s { s with port := s.port.sent } := .single (.port (.sent hx hkind))
  unfold State.takeCompletion
  split
  next h => exact (hsent (by simp [h, Notice.code])).trans (State.announcementSent_acts hc)
  next h => exact (hsent (by simp [h, Notice.code])).trans (State.announcementSent_acts hc)
  next h => exact .single (.holeSent hx (by simp [h, Notice.code]))
  all_goals
    next h => exact hsent (by simp [h, Notice.code])

end Sys2Proof.Machine
end

section
/-! PROOFS. Every command is made of acts. -/

namespace Sys2Proof.Machine

open Sys2Proof

variable {c : Instr} {s t u : State}

/-- A command's answer is what its outcome holds. -/
theorem acts_of_next (h : (Host.Outcome.next u : Host.Outcome State Fault Refusal) = .next t) (hu : Acts c s u) :
    Acts c s t := by
  injection h with h
  exact h ▸ hu

theorem State.respond_acts {n : Nat} {code : Byte} {bytes : List Byte} (hport : onPort c) (h : Acts c s u) :
    Acts c s (s.respond u n code bytes) := h.tail (.answer hport)

theorem State.refuse_acts {n : Nat} {code : Byte} (hport : onPort c) : Acts c s (s.refuse n code) :=
  State.respond_acts hport .refl

theorem State.atExpiryOf_acts {x : Timer} : Acts c s (s.atExpiryOf x) := .single .timeBase

/-! ### The inputs and timers -/

theorem execDecoderEvent_acts {a b : Bool} (hdraw : mayDraw c) (h : execDecoderEvent a b s = .next t) :
    Acts c s t := by
  have hheld : Acts c s { s with travel := { s.travel with phaseA := a, phaseB := b } } :=
    .single (.travel (.inr ⟨rfl, rfl, .inl rfl⟩))
  unfold execDecoderEvent at h
  simp only [] at h
  split at h
  · exact acts_of_next h .refl
  · exact acts_of_next h hheld
  · exact acts_of_next h (hheld.trans (State.takeCount_acts hdraw))
  · exact acts_of_next h (hheld.trans (State.takeCount_acts hdraw))

theorem execBeltRunInputChange_acts {b : Bool} (h : execBeltRunInputChange b s = .next t) : Acts c s t := by
  have hbelt : Acts c s { s with travel := { s.travel with beltRun := b } } :=
    .single (.travel (.inr ⟨rfl, rfl, .inl rfl⟩))
  unfold execBeltRunInputChange at h
  simp only [] at h
  split at h
  · exact acts_of_next h .refl
  · split at h
    · split at h
      next hline =>
        rw [Bool.and_eq_true] at hline
        exact acts_of_next h (hbelt.trans (State.travel_acts hline.1))
      next => exact acts_of_next h hbelt
    · exact acts_of_next h (.single (.travel (.inr ⟨rfl, rfl, .inr rfl⟩)))

theorem execEncoderLossTimerExpiry_acts (h : execEncoderLossTimerExpiry s = .next t) : Acts c s t := by
  unfold execEncoderLossTimerExpiry at h
  split at h
  next htimer =>
    exact acts_of_next h (State.atExpiryOf_acts.trans (State.encoderLost_acts (Timer.isRunning_iff.mp htimer)))
  next => exact acts_of_next h .refl

theorem execEyeRawChange_acts {k : Lane} {b : Bool} (hdraw : mayDraw c) (h : execEyeRawChange k b s = .next t) :
    Acts c s t := by
  unfold execEyeRawChange at h
  simp only [] at h
  split at h
  · exact acts_of_next h .refl
  · split at h
    · exact acts_of_next h (State.eye_acts (.inr rfl))
    · have hraw : Acts c s { s with eyes := s.eyes.set k { s.eyes.get k with raw := b } } := State.eye_acts (.inr rfl)
      exact acts_of_next h (hraw.trans (State.takeLevel_acts hdraw))

theorem execEyeDebounceExpiry_acts {k : Lane} (hdraw : mayDraw c) (h : execEyeDebounceExpiry k s = .next t) :
    Acts c s t := by
  unfold execEyeDebounceExpiry at h
  simp only [] at h
  split at h
  · have hstopped : Acts c s { s.atExpiryOf (s.eyes.get k).debounce with
        eyes := s.eyes.set k { s.eyes.get k with debounce := .stopped } } :=
      State.atExpiryOf_acts.trans (State.eye_acts (.inr rfl))
    exact acts_of_next h (hstopped.trans (State.takeLevel_acts hdraw))
  · exact acts_of_next h .refl

theorem execClampClosedEdge_acts {x : BitVec 4} (hdraw : mayDraw c) (h : execClampClosedEdge x s = .next t) :
    Acts c s t := by
  unfold execClampClosedEdge at h
  split at h
  next hfeed =>
    split at h
    next hroom => exact acts_of_next h (State.createRecord_acts hdraw (State.onLine_of_running hfeed.2) hroom)
    next => exact acts_of_next h State.occur_acts
  next => exact acts_of_next h .refl

theorem execSpreaderReadyRising_acts (hdraw : mayDraw c) (h : execSpreaderReadyRising s = .next t) : Acts c s t := by
  have hready : Acts c s { s with feed := { s.feed with spreader := true } } := .single .spreader
  unfold execSpreaderReadyRising at h
  simp only [] at h
  split at h
  · exact acts_of_next h .refl
  · split at h
    next hfeed =>
      obtain ⟨-, hrunning, -⟩ := hfeed
      have hline : State.onLine { s with feed := { s.feed with spreader := true } } = true :=
        State.onLine_of_running hrunning
      exact acts_of_next h (hready.trans (State.presentHead_acts hdraw hline))
    next => exact acts_of_next h hready

/-- The handshake's work at a feed unit that is not at rest. -/
theorem State.feedBusy_acts {g : FeedUnit} (hbusy : s.feed ≠ .cleared s.feed.spreader) (hmap : g.map = s.feed.map)
    (hqueue : g.queue = s.feed.queue) (hpatience : g.patience = s.feed.patience) : Acts c s { s with feed := g } :=
  .single (.feed (.inr hbusy) (.work hmap (by rw [hqueue]) (.inr hpatience)))

theorem execSpreaderReadyFalling_acts (h : execSpreaderReadyFalling s = .next t) : Acts c s t := by
  have hbusy (hshake : s.feed.handshake ≠ .waiting) : s.feed ≠ .cleared s.feed.spreader :=
    fun he => hshake (by rw [he]; rfl)
  unfold execSpreaderReadyFalling at h
  split at h
  · split at h
    next => exact acts_of_next h (.single .spreader)
    next hshake => exact acts_of_next h (State.feedBusy_acts (hbusy (by simp [hshake])) rfl rfl rfl)
    next hshake => exact acts_of_next h (State.feedBusy_acts (hbusy (by simp [hshake])) rfl rfl rfl)
  · exact acts_of_next h .refl

theorem execReleasePulseExpiry_acts (h : execReleasePulseExpiry s = .next t) : Acts c s t := by
  unfold execReleasePulseExpiry at h
  simp only [] at h
  split at h
  next htimer =>
    have hbusy : s.feed ≠ .cleared s.feed.spreader := fun he => by
      rw [he] at htimer
      simp [FeedUnit.cleared, Timer.isRunning] at htimer
    have hfeed (g : FeedUnit) (hmap : g.map = s.feed.map) (hqueue : g.queue = s.feed.queue)
        (hpatience : g.patience = s.feed.patience) : Acts c (s.atExpiryOf s.feed.releaseTimer)
          { s.atExpiryOf s.feed.releaseTimer with feed := g } :=
      State.feedBusy_acts (s := s.atExpiryOf s.feed.releaseTimer) hbusy hmap hqueue hpatience
    exact acts_of_next h (State.atExpiryOf_acts.trans (hfeed _ rfl rfl rfl))
  next => exact acts_of_next h .refl

theorem execSpreaderStuckTimerExpiry_acts (h : execSpreaderStuckTimerExpiry s = .next t) : Acts c s t := by
  unfold execSpreaderStuckTimerExpiry at h
  simp only [] at h
  split at h
  next htimer =>
    have hbusy : s.feed ≠ .cleared s.feed.spreader := fun he => by
      rw [he] at htimer
      simp [FeedUnit.cleared, Timer.isRunning] at htimer
    have hstopped : Acts c s { s.atExpiryOf s.feed.stuckTimer with feed := { s.feed with stuckTimer := .stopped } } :=
      State.atExpiryOf_acts.trans
        (State.feedBusy_acts (s := s.atExpiryOf s.feed.stuckTimer) hbusy rfl rfl rfl)
    exact acts_of_next h (hstopped.trans State.occur_acts)
  next => exact acts_of_next h .refl

theorem execBatchCloseInputActive_acts (h : execBatchCloseInputActive s = .next t) : Acts c s t := by
  unfold execBatchCloseInputActive at h
  split at h
  next hfeed => exact acts_of_next h (State.feedWork_acts (State.onLineAs_iff.mp hfeed).1 rfl le_rfl (.inr rfl))
  next => exact acts_of_next h .refl

theorem execHoldInputChange_acts {b : Bool} (h : execHoldInputChange b s = .next t) : Acts c s t := by
  have hheld : Acts c s { s with control := { s.control with holdInput := b } } :=
    .single (.control (.inputs (restart := s.control.restartFlag)))
  exact acts_of_next h ((hheld.trans (followParkBegin_acts (before := s) rfl)).trans reviewDrop_acts)

theorem execDischargeDone_acts {x : StackerNo} (h : execDischargeDone x s = .next t) : Acts c s t := by
  unfold execDischargeDone at h
  split at h
  next hsort =>
    rw [Bool.and_eq_true] at hsort
    exact acts_of_next h (State.withSort_acts (State.onLineAs_iff.mp hsort.1).1 .dischargeDone)
  next => exact acts_of_next h .refl

theorem execBladePulseExpiry_acts (h : execBladePulseExpiry s = .next t) : Acts c s t := by
  unfold execBladePulseExpiry at h
  simp only [] at h
  split at h
  · exact acts_of_next h (State.atExpiryOf_acts.tail .bladeEnds)
  · exact acts_of_next h .refl

theorem execSettleTimerExpiry_acts (hc : c = .settleTimerExpiry) (h : execSettleTimerExpiry s = .next t) :
    Acts c s t := by
  unfold execSettleTimerExpiry at h
  simp only [] at h
  split at h
  next hjoining =>
    have hentered : Acts c s { s.atExpiryOf s.control.settleTimer with
        control := { s.control with state := .running, settleTimer := .stopped } } :=
      State.atExpiryOf_acts.tail (.move (.settle (s := s.atExpiryOf s.control.settleTimer) hc hjoining.2))
    exact acts_of_next h ((hentered.trans (State.haltAtEntry_acts rfl)).trans reviewDrop_acts)
  next => exact acts_of_next h .refl

/-! ### The line port -/

theorem execOffLineTimerExpiry_acts (h : execOffLineTimerExpiry s = .next t) : Acts c s t := by
  unfold execOffLineTimerExpiry at h
  simp only [] at h
  split at h
  · exact acts_of_next h (State.atExpiryOf_acts.tail (.port .offLineEnds))
  · exact acts_of_next h .refl

theorem execSendAttemptStart_acts (h : execSendAttemptStart s = .next t) : Acts c s t := by
  unfold execSendAttemptStart at h
  split at h
  next hsend =>
    simp only [Bool.and_eq_true, Bool.not_eq_true'] at hsend
    exact acts_of_next h (.single (.port (.start hsend.1 (by simpa using hsend.2))))
  next => exact acts_of_next h .refl

theorem execLostContention_acts {n : Nat} (h : execLostContention n s = .next t) : Acts c s t := by
  unfold execLostContention at h
  split at h
  · exact acts_of_next h .refl
  next x hx =>
    split at h
    · exact acts_of_next h (.single (.port (.contention hx)))
    · exact acts_of_next h .refl

theorem execTransmitFailure_acts {n : Nat} (hclash : mayClash c) (h : execTransmitFailure n s = .next t) :
    Acts c s t := by
  unfold execTransmitFailure at h
  split at h
  · exact acts_of_next h .refl
  next x hx =>
    split at h
    · exact acts_of_next h (State.sendFailed_acts hclash hx)
    · exact acts_of_next h .refl

theorem execTransmitCompletion_acts (hc : c = .transmitCompletion) (h : execTransmitCompletion s = .next t) :
    Acts c s t := by
  unfold execTransmitCompletion at h
  split at h
  · exact acts_of_next h .refl
  next x hx => exact acts_of_next h (State.completion_acts hc hx)

theorem execFrameAbandoned_acts {bits : List Bool} (h : execFrameAbandoned bits s = .next t) : Acts c s t := by
  unfold execFrameAbandoned at h
  split at h
  next failed ident hreads hfollow =>
    exact acts_of_next h (((State.waitIdle_acts hreads).trans State.discardFault_acts).trans reviewDrop_acts)
  next => exact acts_of_next h .refl

theorem execReceivedFrameEnd_acts {bits : List Bool} (hclash : mayClash c)
    (h : execReceivedFrameEnd bits s = .next t) : Acts c s t := by
  unfold execReceivedFrameEnd at h
  split at h
  next failed f hreads hfollow => exact acts_of_next h ((State.frameEnds_acts hclash hreads).trans reviewDrop_acts)
  next => exact acts_of_next h .refl

theorem execMediumBecomesIdle_acts {b : Bool} (h : execMediumBecomesIdle s b = .next t) : Acts c s t := by
  unfold execMediumBecomesIdle at h
  split at h
  · split at h
    next hport => exact acts_of_next h (.single (.port (.medium hport.1 hport.2 (by simp))))
    next => exact acts_of_next h .refl
  · refine acts_of_next h ?_
    unfold LinePort.readStartBit
    split
    next hport => exact .single (.port (.medium hport.1 (by simp [hport.2]) (by simp)))
    next => exact .refl

/-! ### The processor port -/

theorem execAckFaults_acts (hport : onPort c) {kinds : BitVec 16} (hc : c = .ackFaults kinds)
    (h : execAckFaults kinds s = .next t) : Acts c s t :=
  acts_of_next h (State.respond_acts hport (.trans (.single (.ack hc)) reviewDrop_acts))

theorem execReadTally_acts (hport : onPort c) {n : Byte} (h : execReadTally n s = .next t) : Acts c s t := by
  unfold execReadTally at h
  split at h
  · exact acts_of_next h (State.refuse_acts hport)
  · exact acts_of_next h (State.respond_acts hport (.single .tallyTaken))

theorem execReadImage_acts (hport : onPort c) {o : BitVec 16} {n : Byte} (h : execReadImage o n s = .next t) :
    Acts c s t := by
  unfold execReadImage at h
  split at h
  · exact acts_of_next h (State.respond_acts hport .refl)
  · exact acts_of_next h (State.refuse_acts hport)

theorem execWriteConfig_acts (hport : onPort c) {o : BitVec 16} {data : List Byte} (hc : c = .writeConfig o data)
    (h : execWriteConfig o data s = .next t) : Acts c s t := by
  unfold execWriteConfig at h
  split at h
  · exact acts_of_next h (State.refuse_acts hport)
  next hfrozen =>
    split at h
    · exact acts_of_next h (State.refuse_acts hport)
    next hdeparture =>
      split at h
      next hallowed =>
        exact acts_of_next h (State.respond_acts hport
          (.single (.move (.writeImage hc (by simpa using hfrozen) (by simpa using hdeparture) hallowed))))
      next => exact acts_of_next h (State.refuse_acts hport)

theorem execValidate_acts (hport : onPort c) (hc : c = .validate) (h : execValidate s = .next t) : Acts c s t := by
  unfold execValidate at h
  split at h
  · exact acts_of_next h (State.refuse_acts hport)
  next hfrozen =>
    split at h
    · exact acts_of_next h (State.refuse_acts hport)
    next hdeparture =>
      have hfrozen : s.spi.frozen = false := by simpa using hfrozen
      have hdeparture : s.control.departure = false := by simpa using hdeparture
      split at h
      next hvalid =>
        exact acts_of_next h
          (State.respond_acts hport (.single (.move (.validate hc hfrozen hdeparture (.inl ⟨rfl, hvalid⟩)))))
      next =>
        exact acts_of_next h
          (State.respond_acts hport (.single (.move (.validate hc hfrozen hdeparture (.inr rfl)))))

theorem execJoin_acts (hport : onPort c) (hc : c = .join) (h : execJoin s = .next t) : Acts c s t := by
  unfold execJoin at h
  split at h
  · exact acts_of_next h (State.refuse_acts hport)
  next hjoin =>
    simp only [not_or, ne_eq, not_not, Bool.not_eq_true] at hjoin
    exact acts_of_next h (State.respond_acts hport (State.joinLine_acts hc hjoin.1 hjoin.2))

theorem execLeave_acts (hport : onPort c) (hc : c = .leave) (h : execLeave s = .next t) : Acts c s t := by
  unfold execLeave at h
  split at h
  next hline => exact acts_of_next h (State.respond_acts hport (State.leaveLine_acts hc hline))
  next => exact acts_of_next h (State.refuse_acts hport)

theorem execStopLine_acts (hport : onPort c) (h : execStopLine s = .next t) : Acts c s t := by
  unfold execStopLine at h
  split at h
  · exact acts_of_next h (State.refuse_acts hport)
  next hrunning =>
    split at h
    · exact acts_of_next h (State.refuse_acts hport)
    · exact acts_of_next h (State.respond_acts hport (State.raiseOwnHalt_acts (by simpa using hrunning)))

theorem execResume_acts (hport : onPort c) (h : execResume s = .next t) : Acts c s t := by
  unfold execResume at h
  split at h
  · exact acts_of_next h (State.refuse_acts hport)
  · split at h
    · exact acts_of_next h (State.refuse_acts hport)
    next hout =>
      split at h
      · exact acts_of_next h (State.refuse_acts hport)
      · exact acts_of_next h
          (State.respond_acts hport ((State.endOwnHalt_acts (by simpa using hout)).trans reviewDrop_acts))

theorem execCloseStack_acts (hport : onPort c) {x : Byte} (h : execCloseStack x s = .next t) : Acts c s t := by
  unfold execCloseStack at h
  split at h
  · exact acts_of_next h (State.refuse_acts hport)
  next hline =>
    split at h
    · exact acts_of_next h (State.refuse_acts hport)
    · split at h
      · exact acts_of_next h (State.refuse_acts hport)
      · split at h
        · exact acts_of_next h (State.refuse_acts hport)
        · exact acts_of_next h (State.respond_acts hport (State.withSort_acts (by simpa using hline) .close))

theorem execClearRestart_acts (hport : onPort c) (h : execClearRestart s = .next t) : Acts c s t :=
  acts_of_next h (State.respond_acts hport (.single (.control (.inputs (hold := s.control.holdInput)))))

theorem execUnknownCommand_acts (hport : onPort c) {x : Byte} (h : execUnknownCommand x s = .next t) : Acts c s t := by
  unfold execUnknownCommand at h
  split at h
  · exact acts_of_next h .refl
  · exact acts_of_next h (State.refuse_acts hport)

theorem execTransactionCutShort_acts (hport : onPort c) {b : Bool} (h : execTransactionCutShort s b = .next t) :
    Acts c s t := by
  unfold execTransactionCutShort at h
  split at h
  · exact acts_of_next h (.single (.answer (l := s.spi.returned) hport))
  · exact acts_of_next h (.single (.answer hport))

/-- A command is made of acts of its own. -/
theorem exec_acts (h : exec c s = .next t) : Acts c s t := by
  cases c <;> simp only [exec] at h
  case hardReset => exact acts_of_next h (.single (.move (.reset rfl)))
  case decoderEvent => exact execDecoderEvent_acts trivial h
  case beltRunInputChange => exact execBeltRunInputChange_acts h
  case encoderLossTimerExpiry => exact execEncoderLossTimerExpiry_acts h
  case eyeRawChange => exact execEyeRawChange_acts trivial h
  case eyeDebounceExpiry => exact execEyeDebounceExpiry_acts trivial h
  case clampClosedEdge => exact execClampClosedEdge_acts trivial h
  case spreaderReadyRising => exact execSpreaderReadyRising_acts trivial h
  case spreaderReadyFalling => exact execSpreaderReadyFalling_acts h
  case releasePulseExpiry => exact execReleasePulseExpiry_acts h
  case spreaderStuckTimerExpiry => exact execSpreaderStuckTimerExpiry_acts h
  case batchCloseInputActive => exact execBatchCloseInputActive_acts h
  case holdInputChange => exact execHoldInputChange_acts h
  case dischargeDone => exact execDischargeDone_acts h
  case bladePulseExpiry => exact execBladePulseExpiry_acts h
  case settleTimerExpiry => exact execSettleTimerExpiry_acts rfl h
  case offLineTimerExpiry => exact execOffLineTimerExpiry_acts h
  case sendAttemptStart => exact execSendAttemptStart_acts h
  case lostContention => exact execLostContention_acts h
  case transmitFailure => exact execTransmitFailure_acts trivial h
  case transmitCompletion => exact execTransmitCompletion_acts rfl h
  case frameAbandoned => exact execFrameAbandoned_acts h
  case receivedFrameEnd => exact execReceivedFrameEnd_acts trivial h
  case readStatus => exact acts_of_next h (State.respond_acts (.inl (Option.some_ne_none _)) .refl)
  case readFaults => exact acts_of_next h (State.respond_acts (.inl (Option.some_ne_none _)) .refl)
  case ackFaults => exact execAckFaults_acts (.inl (Option.some_ne_none _)) rfl h
  case readTally => exact execReadTally_acts (.inl (Option.some_ne_none _)) h
  case readImage => exact execReadImage_acts (.inl (Option.some_ne_none _)) h
  case writeConfig => exact execWriteConfig_acts (.inl (Option.some_ne_none _)) rfl h
  case validate => exact execValidate_acts (.inl (Option.some_ne_none _)) rfl h
  case join => exact execJoin_acts (.inl (Option.some_ne_none _)) rfl h
  case leave => exact execLeave_acts (.inl (Option.some_ne_none _)) rfl h
  case stopLine => exact execStopLine_acts (.inl (Option.some_ne_none _)) h
  case resume => exact execResume_acts (.inl (Option.some_ne_none _)) h
  case closeStack => exact execCloseStack_acts (.inl (Option.some_ne_none _)) h
  case clearRestart => exact execClearRestart_acts (.inl (Option.some_ne_none _)) h
  case unknownCommand => exact execUnknownCommand_acts (.inl (Option.some_ne_none _)) h
  case transactionCutShort active =>
    cases active
    · exact execTransactionCutShort_acts (.inl (Option.some_ne_none _)) h
    · exact execTransactionCutShort_acts (.inr rfl) h
  case mediumBecomesIdle => exact execMediumBecomesIdle_acts h

end Sys2Proof.Machine
end

section
/-! PROOFS. The station state: what moves it, what its ties are, and that the image stands while it is frozen; the fault
unit's counts and pending set, and the sequence counter, under every command. -/

namespace Sys2Proof.Machine

open Sys2Proof

variable {c : Instr} {s t : State}

/-- A law that each act keeps is kept by every step: the queue of waiting commands and the time base are no law's. -/
theorem step_keeps {P : State → Prop} (hwaiting : ∀ s l, P s → P { s with pending := l })
    (htime : ∀ s n, P s → P { s with timeBase := n }) (hact : ∀ c s t, Act c s t → P s → P t)
    (hs : P s) (h : step s = .next t) : P t := by
  rcases step_cases s t h with ⟨-, rfl⟩ | ⟨c, rest, -, hexec⟩
  · exact htime _ _ hs
  · exact Acts.keep (hact c) (exec_acts hexec) (hwaiting _ _ hs)

/-! ### What leaves the station state alone -/

/-- The image, the frozen flag and the station state, with what goes with it, are the same in two states. -/
structure SameStanding (s t : State) : Prop where
  image : t.spi.image = s.spi.image
  frozen : t.spi.frozen = s.spi.frozen
  state : t.control.state = s.control.state
  departure : t.control.departure = s.control.departure
  lockoutCause : t.control.lockoutCause = s.control.lockoutCause
  settleTimer : t.control.settleTimer = s.control.settleTimer

theorem Within.sameStanding (h : Within s t) : SameStanding s t :=
  ⟨by rw [h.spi], by rw [h.spi], h.state, h.departure, h.lockoutCause, h.settleTimer⟩

theorem SameStanding.onLine (h : SameStanding s t) : t.onLine = s.onLine := State.onLine_of_state h.state

/-- An announcement step changes the announcement state alone (R67). -/
theorem StationControl.announceStep_shape (k : StationControl) (a : Announced) :
    ∃ q o, (k.announceStep a).1 = { k with queued := q, owed := o } := by
  unfold StationControl.announceStep
  split
  · exact ⟨_, _, rfl⟩
  · split <;> exact ⟨_, _, rfl⟩

theorem ControlAct.sameStanding {k : StationControl} (h : ControlAct c s k) :
    SameStanding s { s with control := k } := by
  cases h
  case announce a _ =>
    obtain ⟨q, o, e⟩ := s.control.announceStep_shape a
    rw [e]
    constructor <;> rfl
  case resume =>
    obtain ⟨q, o, e⟩ := StationControl.announceStep_shape
      { s.control.removeHalt (Image.address s.image) with ownHalt := none } .resume
    rw [e]
    constructor <;> rfl
  all_goals constructor <;> rfl

/-- An act leaves the station state alone, or is one of those that move it. -/
theorem Act.sameStanding_or_move (h : Act c s t) : SameStanding s t ∨ Move c s t := by
  cases h
  case move h => exact .inr h
  case control h => exact .inl h.sameStanding
  case put n age _ => exact .inl (s.put_quiet n age).within.sameStanding
  case openHole x f n _ _ _ _ _ _ =>
    obtain ⟨h1, h2, h3, h4, h5, h6⟩ := ((s.holdOpen x f).put_quiet n 0).within.sameStanding
    exact .inl ⟨h1, h2, h3, h4, h5, h6⟩
  case holeSent =>
    obtain ⟨h1, h2, h3, h4, h5, h6⟩ := (State.holeCompleted_within { s with port := s.port.sent }).sameStanding
    exact .inl ⟨h1, h2, h3, h4, h5, h6⟩
  all_goals exact .inl (by constructor <;> rfl)

/-! ### The ties of the station state (R51 to R53, R55, R69, R183) -/

theorem standing_of_same (h : SameStanding s t) (hs : Standing s) : Standing t := by
  obtain ⟨himage, hfrozen, hstate, hdeparture, hcause, htimer⟩ := h
  unfold Standing State.image at *
  rwa [himage, hfrozen, hstate, hdeparture, hcause, htimer]

/-- Bytes written inside the image leave its length. -/
theorem Image.write_length {im : Image} {o : Nat} {data : List Byte} (h : o + data.length ≤ im.length) :
    (Image.write im o data).length = im.length := by
  simp only [Image.write, List.length_append, List.length_take, List.length_drop]
  omega

theorem stretchAllowed_iff {o n : Nat} : stretchAllowed o n = true ↔ n ≠ 0 ∧ n ≤ 64 ∧ o + n ≤ 320 := by
  simp only [stretchAllowed, Bool.and_eq_true, bne_iff_ne, decide_eq_true_eq, and_assoc]
  rfl

theorem State.onLine_iff : s.onLine = true ↔ s.control.state = .joining ∨ s.control.state = .running := by
  simp [State.onLine]

/-- A station whose image is not frozen is UNCONFIGURED or CONFIGURED, with its settle timer stopped and no lockout
cause (R52, R53, R55, R183). -/
theorem Standing.of_not_frozen (hs : Standing s) (h : s.spi.frozen = false) :
    (s.control.state = .unconfigured ∨ s.control.state = .configured)
      ∧ s.control.settleTimer = .stopped ∧ s.control.lockoutCause = none := by
  obtain ⟨-, hfrozen, -, htimer, hcause, -⟩ := hs
  rw [h] at hfrozen
  cases hstate : s.control.state <;> simp_all

/-- A station on the line has its image frozen, no departure and no lockout cause, and its image is valid. -/
theorem Standing.of_onLine (hs : Standing s) (h : s.onLine = true) :
    s.spi.frozen = true ∧ s.control.departure = false ∧ s.control.lockoutCause = none
      ∧ Image.firstFailure s.image = none := by
  obtain ⟨-, hfrozen, hdeparture, -, hcause, hvalid⟩ := hs
  rcases State.onLine_iff.mp h with hstate | hstate <;> simp_all

/-- The ties of a station that is UNCONFIGURED or CONFIGURED. -/
theorem standing_of_not_frozen (hlength : s.spi.image.length = 320) (hfrozen : s.spi.frozen = false)
    (hstate : s.control.state = .unconfigured ∨ s.control.state = .configured)
    (hdeparture : s.control.departure = true → s.control.state = .configured) (htimer : s.control.settleTimer = .stopped)
    (hcause : s.control.lockoutCause = none)
    (hvalid : s.control.state = .configured → Image.firstFailure s.image = none) : Standing s := by
  refine ⟨hlength, ?_, hdeparture, ?_, ?_, fun h => hvalid (hstate.resolve_left h)⟩
    <;> rcases hstate with hstate | hstate <;> simp [hfrozen, hstate, htimer, hcause]

/-- What the station at a departure's begin has of its standing (R68). -/
theorem State.departed_standing (s : State) :
    s.departed.spi = { s.spi with frozen := false } ∧ s.departed.control.state = .configured
      ∧ s.departed.control.settleTimer = .stopped ∧ s.departed.control.lockoutCause = s.control.lockoutCause := by
  unfold State.departed
  split <;> exact ⟨rfl, rfl, rfl, rfl⟩

theorem State.writeImage_state_of {o : Nat} {data : List Byte}
    (h : s.control.state = .unconfigured ∨ s.control.state = .configured) :
    (s.writeImage o data).control.state = .unconfigured := by
  rcases h with h | h <;> simp [State.writeImage, h]

theorem Move.standing (h : Move c s t) (hs : Standing s) : Standing t := by
  obtain ⟨hlength, hfrozen, hdeparture, htimer, hcause, hvalid⟩ := id hs
  cases h
  case endDeparture => exact ⟨hlength, hfrozen, by simp, htimer, hcause, hvalid⟩
  case join hc hstate hdep =>
    have hnone : s.control.lockoutCause = none := by simpa [hstate] using hcause
    refine ⟨hlength, ?_, ?_, ?_, ?_, fun _ => hvalid (by simp [hstate])⟩
      <;> simp [State.joined, State.renewEyes, State.startTimer, hdep, hnone]
  case leave hc hline =>
    obtain ⟨-, -, hnone, himage⟩ := hs.of_onLine hline
    obtain ⟨hspi, hstate, hstopped, hkept⟩ := s.departed_standing
    refine standing_of_not_frozen (by rw [hspi]; exact hlength) (by rw [hspi]) (.inr hstate) (fun _ => hstate) hstopped
      (hkept.trans hnone) fun _ => ?_
    rw [State.image, hspi]
    exact himage
  case lockOut cause hc hstate =>
    obtain ⟨hfro, hdep, -, -⟩ := hs.of_onLine (State.onLine_iff.mpr (.inl hstate))
    refine ⟨hlength, ?_, ?_, ?_, ?_, fun _ => hvalid (by simp [hstate])⟩
      <;> simp [State.lockOut, State.clearTracking, State.renewEyes, State.clearPort, hdep, hfro]
  case settle hc hstate =>
    obtain ⟨hfro, hdep, hnone, -⟩ := hs.of_onLine (State.onLine_iff.mpr (.inl hstate))
    refine ⟨hlength, ?_, ?_, ?_, ?_, fun _ => hvalid (by simp [hstate])⟩ <;> simp [hdep, hfro, hnone]
  case writeImage o data hc hfro hdep hallowed =>
    obtain ⟨hoff, hstopped, hnone⟩ := hs.of_not_frozen hfro
    have hstate := s.writeImage_state_of (o := o.toNat) (data := data) hoff
    have hlast : o.toNat + data.length ≤ s.spi.image.length := hlength ▸ (stretchAllowed_iff.mp hallowed).2.2
    exact standing_of_not_frozen ((Image.write_length hlast).trans hlength) hfro (.inl hstate)
      (fun h => absurd (hdep.symm.trans h) (by simp)) hstopped hnone (fun h => by simp [hstate] at h)
  case validate x hc hfro hdep hx =>
    obtain ⟨-, hstopped, hnone⟩ := hs.of_not_frozen hfro
    refine standing_of_not_frozen hlength hfro ?_ (fun h => absurd (hdep.symm.trans h) (by simp)) hstopped hnone
      fun h => ?_
    · exact hx.symm.imp id And.left
    · rcases hx with ⟨-, himage⟩ | rfl
      · exact himage
      · simp [State.withStationState] at h
  case reset =>
    exact standing_of_not_frozen List.length_replicate rfl (.inl rfl) (fun h => by simp [State.afterReset] at h) rfl rfl
      (fun h => by simp [State.afterReset] at h)

theorem Act.standing (h : Act c s t) (hs : Standing s) : Standing t :=
  h.sameStanding_or_move.elim (fun h => standing_of_same h hs) fun h => h.standing hs

/-- Settles O51: every act keeps the ties of the station state. -/
theorem standingKept : Obligations.StandingKept :=
  fun _ _ hs h => step_keeps (fun _ _ h => h) (fun _ _ h => h) (fun _ _ _ => Act.standing) hs h

/-! ### Moves and the frozen image (chapter 4, R183) -/

theorem mayMove_trans {x y z : StationState} (h : mayMove c x y) (h' : mayMove c y z) : mayMove c x z := by
  cases c <;> simp only [mayMove] at h h' ⊢
  case hardReset => exact h'
  case validate => exact ⟨h.1, h'.2⟩
  all_goals exact ⟨h.1, h'.2⟩

theorem Move.mayMove_state (h : Move c s t) (hs : Standing s) :
    t.control.state = s.control.state ∨ mayMove c s.control.state t.control.state := by
  cases h
  case endDeparture => exact .inl rfl
  case join hc hstate _ => subst hc; exact .inr ⟨hstate, rfl⟩
  case leave hc hline => subst hc; exact .inr ⟨State.onLine_iff.mp hline, s.departed_standing.2.1⟩
  case lockOut hc hstate =>
    match c, hc with
    | .transmitFailure _, _ => exact .inr ⟨hstate, rfl⟩
    | .receivedFrameEnd _, _ => exact .inr ⟨hstate, rfl⟩
  case settle hc hstate => subst hc; exact .inr ⟨hstate, rfl⟩
  case writeImage o data hc hfro _ _ =>
    subst hc
    have hoff := (hs.of_not_frozen hfro).1
    have hstate := s.writeImage_state_of (o := o.toNat) (data := data) hoff
    exact hoff.imp (fun h => hstate.trans h.symm) fun h => ⟨h, hstate⟩
  case validate x hc hfro _ hx => subst hc; exact .inr ⟨(hs.of_not_frozen hfro).1, (hx.symm.imp id And.left)⟩
  case reset hc => subst hc; exact .inr rfl

/-- The image stands while it is frozen, which LEAVE alone ends (R183). -/
theorem Act.image_of_frozen (h : Act c s t) (hreset : ∀ pins, c ≠ .hardReset pins)
    (hs : s.spi.frozen = true ∨ c = .leave) :
    t.spi.image = s.spi.image ∧ (t.spi.frozen = true ∨ c = .leave) := by
  rcases h.sameStanding_or_move with hsame | hmove
  · exact ⟨hsame.image, by rwa [hsame.frozen]⟩
  · cases hmove
    case leave hc _ => exact ⟨by rw [s.departed_standing.1], .inr hc⟩
    case join => exact ⟨rfl, .inl rfl⟩
    case writeImage hc hfro _ _ => rcases hs with hs | hs <;> simp_all
    case reset hc => exact absurd hc (hreset _)
    all_goals exact ⟨rfl, hs⟩

/-- Settles O49: the moves are those of the acts that move the station, and no act writes a frozen image. -/
theorem stationMovesAndImage : Obligations.StationMovesAndImage := by
  intro c s t hs h
  refine ⟨fun hne => ?moves, fun hstate hreset => ?image⟩
  case moves =>
    have hkept := Acts.keep (P := fun u => Standing u ∧
      (u.control.state = s.control.state ∨ mayMove c s.control.state u.control.state)) (fun u v hact hu => ?_)
      (exec_acts h) ⟨hs, .inl rfl⟩
    · exact hkept.2.resolve_left hne
    · refine ⟨hact.standing hu.1, ?_⟩
      rcases hact.sameStanding_or_move with hsame | hmove
      · rw [hsame.state]
        exact hu.2
      · rcases hmove.mayMove_state hu.1 with hsame | hmoved
        · rw [hsame]
          exact hu.2
        · rcases hu.2 with hfirst | hfirst
          · exact .inr (hfirst ▸ hmoved)
          · exact .inr (mayMove_trans hfirst hmoved)
  case image =>
    have hfrozen : s.spi.frozen = true := hs.2.1.mpr hstate
    have hkept := Acts.keep (P := fun u => u.spi.image = s.spi.image ∧ (u.spi.frozen = true ∨ c = .leave))
      (fun u v hact hu => ?_) (exec_acts h) ⟨rfl, .inl hfrozen⟩
    · exact hkept.1
    · obtain ⟨himage, hfro⟩ := hact.image_of_frozen hreset hu.2
      exact ⟨himage.trans hu.1, hfro⟩

/-! ### Counts and the pending set (R172, R173) -/

/-- All that an act does to the fault unit: an occurrence, an acknowledgement, the policy at JOIN, and a reset. -/
theorem Act.faults_cases (h : Act c s t) :
    t.faults = s.faults ∨ (∃ o, t.faults = s.faults.take o) ∨ (∃ kinds, c = .ackFaults kinds ∧ t.faults = s.faults.ack kinds)
      ∨ (∃ p, t.faults = { s.faults with policy := p }) ∨ ∃ pins, c = .hardReset pins ∧ t.faults = State.reset.faults := by
  cases h
  case take o => exact .inr (.inl ⟨o, rfl⟩)
  case ack kinds hc => exact .inr (.inr (.inl ⟨kinds, hc, rfl⟩))
  case put n age _ => exact .inl (s.put_faults n age)
  case openHole x f n _ _ _ _ _ _ => exact .inl ((s.holdOpen x f).put_faults n 0)
  case holeSent => exact .inl (by unfold State.holeCompleted; split <;> rfl)
  case move h =>
    cases h
    case join => exact .inr (.inr (.inr (.inl ⟨_, rfl⟩)))
    case leave => exact .inl (by unfold State.departed; split <;> rfl)
    case reset pins hc => exact .inr (.inr (.inr (.inr ⟨pins, hc, rfl⟩)))
    all_goals exact .inl rfl
  all_goals exact .inl rfl

theorem FaultUnit.take_counts (u : FaultUnit) (o : Occurrence) :
    (u.take o).counts = u.counts.set o.kind.place (min 255 (u.counts[o.kind.place] + 1)) := by
  unfold FaultUnit.take
  simp only []
  split <;> rfl

theorem FaultUnit.take_counts_get (u : FaultUnit) (o : Occurrence) (j : Fin 16) :
    (u.take o).counts[j] = if o.kind.place = j then min 255 (u.counts[j] + 1) else u.counts[j] := by
  rw [u.take_counts]
  simp only [Fin.getElem_fin, Vector.getElem_set, Fin.ext_iff]
  split
  next h => simp [h]
  next => rfl

theorem FaultUnit.take_pending (u : FaultUnit) (o : Occurrence) (k : FaultKind) (h : u.isPending k = true) :
    (u.take o).isPending k = true := by
  unfold FaultUnit.isPending FaultUnit.take at *
  simp only []
  split
  · exact h
  · simp [h]

/-- Counts in their range stay there (R172). -/
theorem Act.counts_le (h : Act c s t) (hs : ∀ j : Fin 16, s.faults.counts[j] ≤ 255) (j : Fin 16) :
    t.faults.counts[j] ≤ 255 := by
  have hj := hs j
  rcases h.faults_cases with e | ⟨o, e⟩ | ⟨kinds, -, e⟩ | ⟨p, e⟩ | ⟨pins, -, e⟩ <;> rw [e]
  · exact hj
  · rw [FaultUnit.take_counts_get]
    split <;> omega
  · exact hj
  · exact hj
  · simp [State.reset, State.afterReset]

/-- No count in its range falls, but at a hard reset (R172). -/
theorem Act.counts_rise (h : Act c s t) (hreset : ∀ pins, c ≠ .hardReset pins)
    (hs : ∀ j : Fin 16, s.faults.counts[j] ≤ 255) (j : Fin 16) : s.faults.counts[j] ≤ t.faults.counts[j] := by
  have hj := hs j
  rcases h.faults_cases with e | ⟨o, e⟩ | ⟨kinds, -, e⟩ | ⟨p, e⟩ | ⟨pins, hc, -⟩
  · rw [e]
  · rw [e, FaultUnit.take_counts_get]
    split <;> omega
  · rw [e]
    exact le_rfl
  · rw [e]
  · exact absurd hc (hreset pins)

/-- Settles O50: a kind leaves the pending set by an acknowledgement alone, and an occurrence counts upward. -/
theorem pendingStaysUntilAcknowledged : Obligations.PendingStaysUntilAcknowledged := by
  intro c s t h hreset
  refine ⟨fun hack k hk => ?pending, fun hs => ?counts⟩
  case pending =>
    refine Acts.keep (P := fun u => u.faults.isPending k = true) (fun u v hact hu => ?_) (exec_acts h) hk
    rcases hact.faults_cases with e | ⟨o, e⟩ | ⟨kinds, hc, -⟩ | ⟨p, e⟩ | ⟨pins, hc, -⟩
    · rwa [e]
    · rw [e]
      exact FaultUnit.take_pending _ _ _ hu
    · exact absurd hc (hack kinds)
    · rw [e]
      exact hu
    · exact absurd hc (hreset pins)
  case counts =>
    have hkept := Acts.keep (P := fun u => ∀ j : Fin 16, s.faults.counts[j] ≤ u.faults.counts[j] ∧ u.faults.counts[j] ≤ 255)
      (fun u v hact hu j => ?_) (exec_acts h) fun j => ⟨le_rfl, hs j⟩
    · exact fun j => (hkept j).1
    · have hrange := fun i => (hu i).2
      exact ⟨(hu j).1.trans (hact.counts_rise hreset hrange j), hact.counts_le hrange j⟩

/-! ### The sequence counter (R18) -/

/-- Only a draw and a hard reset change the sequence counter (R18). -/
theorem Act.seq_of_no_draw (h : Act c s t) (hdraw : ¬ mayDraw c) (hreset : ∀ pins, c ≠ .hardReset pins) :
    t.control.seq = s.control.seq := by
  cases h
  case control h =>
    cases h
    case draw h _ => exact absurd h hdraw
    case announce a _ =>
      obtain ⟨q, o, e⟩ := s.control.announceStep_shape a
      rw [e]
    case resume =>
      obtain ⟨q, o, e⟩ := StationControl.announceStep_shape
        { s.control.removeHalt (Image.address s.image) with ownHalt := none } .resume
      rw [e]
      rfl
    all_goals rfl
  case put n age _ => exact (s.put_quiet n age).seq
  case openHole x f n _ _ _ _ _ _ => exact ((s.holdOpen x f).put_quiet n 0).seq
  case holeSent => unfold State.holeCompleted; split <;> rfl
  case move h =>
    cases h
    case leave => unfold State.departed; split <;> rfl
    case reset hc => exact absurd hc (hreset _)
    all_goals rfl
  all_goals rfl

theorem State.statusWord_seq (s : State) : s.statusWord[0x0C]? = some s.control.seq := by
  obtain ⟨a, b, htag⟩ := tagBytes_eq_pair (s.control.firstHalt.bind (·.tag))
  unfold State.statusWord
  rw [htag]
  rfl

/-- Settles O48: a draw is the one act that moves the counter on. -/
theorem sequenceCounter : Obligations.SequenceCounter := by
  refine ⟨fun s => ⟨rfl, ?_, ?_, s.statusWord_seq⟩, fun pins s t h => ?_, fun _ _ => rfl, fun c s t h hdraw hreset => ?_⟩
  · have hseq : s.control.seq + 1 = BitVec.ofNat 8 ((s.control.seq.toNat + 1) % 256) := by
      apply BitVec.eq_of_toNat_eq
      simp [BitVec.toNat_add]
    rw [← hseq]
    rfl
  · show s.control.seq + 1 ≠ s.control.seq
    simp
  · injection h with h
    subst h
    rfl
  · exact Acts.keep (P := fun u => u.control.seq = s.control.seq)
      (fun u v hact hu => (hact.seq_of_no_draw hdraw hreset).trans hu) (exec_acts h) rfl

end Sys2Proof.Machine
end

section
/-! PROOFS. The laws of the expectation list, the capacities and ranges, and the rest off the line. -/

namespace Sys2Proof.Machine

open Sys2Proof

variable {c : Instr} {s t : State}

/-! ### What an act does to the tracker -/

theorem State.departed_tracker (s : State) : s.departed.tracker = .cleared := by
  unfold State.departed
  split <;> rfl

theorem State.holeCompleted_tracker (s : State) : s.holeCompleted.tracker = s.tracker := by
  unfold State.holeCompleted
  split <;> rfl

theorem State.moveAll_tracker (s : State) (d : Int) :
    (s.moveAll d).tracker = s.tracker ∨ (s.moveAll d).tracker = s.tracker.advance d := by
  simp only [State.moveAll]
  split
  · exact .inr rfl
  · exact .inl rfl

theorem Act.tracker_cases (h : Act c s t) :
    t.tracker = s.tracker ∨ TrackerAct s.tracker t.tracker ∨ (∃ d, t.tracker = s.tracker.advance d)
      ∨ t.tracker = s.tracker.degrade ∨ t.tracker = .cleared := by
  cases h
  case tracker h => exact .inr (.inl h)
  case encoderLost => exact .inr (.inr (.inr (.inl rfl)))
  case moveAll d _ => exact (s.moveAll_tracker d).imp id fun h => .inr (.inl ⟨d, h⟩)
  case put n age _ => exact .inl (s.put_quiet n age).tracker
  case openHole x f n _ _ _ _ _ _ => exact .inl ((s.holdOpen x f).put_quiet n 0).tracker
  case holeSent => exact .inl (State.holeCompleted_tracker _)
  case move h =>
    cases h
    case leave => exact .inr (.inr (.inr (.inr s.departed_tracker)))
    case lockOut => exact .inr (.inr (.inr (.inr rfl)))
    case reset => exact .inr (.inr (.inr (.inr rfl)))
    all_goals exact .inl rfl
  all_goals exact .inl rfl

/-! ### The expectation list (R71, R72, R76) -/

/-- The expectation list's laws, of a tracker. -/
def Tracker.Listed (t : Tracker) : Prop :=
  t.entries.length ≤ 32 ∧ t.entries.Pairwise (fun a b => a.before b = true)
    ∧ t.entries.Pairwise (fun a b => a.piece.tag ≠ b.piece.tag)
    ∧ ∀ e ∈ t.entries, e.early ≤ 2047 ∧ e.late ≤ 2047 ∧ e.placing < t.nextPlacing

theorem Tracker.listed_of_sublist {t u : Tracker} (h : u.entries.Sublist t.entries) (hnext : u.nextPlacing = t.nextPlacing)
    (ht : t.Listed) : u.Listed := by
  obtain ⟨hlength, hsorted, htags, hrange⟩ := ht
  exact ⟨h.length_le.trans hlength, hsorted.sublist h, htags.sublist h, fun e he => hnext ▸ hrange e (h.subset he)⟩

/-- A change of the entries that leaves their places, tags and tolerances alone. -/
theorem Tracker.listed_map {t u : Tracker} {f : Entry → Entry} (h : u.entries = t.entries.map f)
    (hnext : u.nextPlacing = t.nextPlacing)
    (hf : ∀ e, (f e).piece.tag = e.piece.tag ∧ (f e).remaining = e.remaining ∧ (f e).placing = e.placing
      ∧ (f e).early = e.early ∧ (f e).late = e.late) (ht : t.Listed) : u.Listed := by
  obtain ⟨hlength, hsorted, htags, hrange⟩ := ht
  refine ⟨by rwa [h, List.length_map], ?_, ?_, fun e he => ?_⟩
  · rw [h, List.pairwise_map]
    refine hsorted.imp fun {a b} hab => ?_
    obtain ⟨-, hra, hpa, -, -⟩ := hf a
    obtain ⟨-, hrb, hpb, -, -⟩ := hf b
    rwa [Entry.before_iff, hra, hrb, hpa, hpb, ← Entry.before_iff]
  · rw [h, List.pairwise_map]
    exact htags.imp fun {a b} hab => by rwa [(hf a).1, (hf b).1]
  · rw [h] at he
    obtain ⟨x, hx, rfl⟩ := List.mem_map.mp he
    obtain ⟨-, -, hplacing, hearly, hlate⟩ := hf x
    rw [hplacing, hearly, hlate, hnext]
    exact hrange x hx

theorem Tracker.listed_insert {t : Tracker} {e : Entry} (hearly : e.early ≤ 2047) (hlate : e.late ≤ 2047)
    (hroom : t.entries.length < 32) (hnew : ∀ x ∈ t.entries, x.piece.tag ≠ e.piece.tag) (ht : t.Listed) :
    (t.insert e).Listed := by
  obtain ⟨hlength, hsorted, htags, hrange⟩ := ht
  have hperm := insertEntry_perm { e with placing := t.nextPlacing } t.entries
  refine ⟨by simp only [Tracker.insert, insertEntry_length]; omega, insertEntry_sorted _ _ hsorted, ?_, fun x hx => ?_⟩
  · refine (hperm.pairwise_iff (fun h => h.symm)).mpr (List.pairwise_cons.mpr ⟨fun x hx => (hnew x hx).symm, htags⟩)
  · rcases List.mem_cons.mp (hperm.mem_iff.mp hx) with rfl | hx
    · exact ⟨hearly, hlate, Nat.lt_succ_self _⟩
    · obtain ⟨h1, h2, h3⟩ := hrange x hx
      exact ⟨h1, h2, Nat.lt_succ_of_lt h3⟩

theorem Tracker.listed_advance {t : Tracker} (d : Int) (ht : t.Listed) : (t.advance d).Listed := by
  obtain ⟨hlength, -, htags, hrange⟩ := ht
  have hperm := orderEntries_perm (t.entries.map (·.advance d))
  refine ⟨?_, orderEntries_sorted _, ?_, fun e he => ?_⟩
  · exact (hperm.length_eq.trans (List.length_map _)).trans_le hlength
  · refine (hperm.pairwise_iff (fun h => h.symm)).mpr ?_
    rw [List.pairwise_map]
    exact htags
  · obtain ⟨x, hx, rfl⟩ := List.mem_map.mp (hperm.mem_iff.mp he)
    exact hrange x hx

/-- With the found entry of a tag gone, the rest of the list has room and no entry of that tag. -/
theorem Tracker.remove_found {t : Tracker} {tag : Tag} {x : Entry} (ht : t.Listed) (h : t.find tag = some x) :
    (t.remove x).entries.length < 32 ∧ ∀ y ∈ (t.remove x).entries, y.piece.tag ≠ tag := by
  obtain ⟨hlength, -, htags, -⟩ := ht
  obtain ⟨hmem, htag⟩ := Tracker.find_some h
  have hperm : (x :: t.entries.erase x).Perm t.entries := (List.perm_cons_erase hmem).symm
  have hcount := hperm.length_eq
  obtain ⟨hfirst, -⟩ := List.pairwise_cons.mp ((hperm.pairwise_iff (fun h => h.symm)).mpr htags)
  refine ⟨?_, fun y hy => htag ▸ (hfirst y hy).symm⟩
  simp only [List.length_cons] at hcount
  simp only [Tracker.remove]
  omega

theorem TrackerAct.listed {t u : Tracker} (h : TrackerAct t u) (ht : t.Listed) : u.Listed := by
  cases h
  case remove => exact Tracker.listed_of_sublist List.erase_sublist rfl ht
  case passage e g =>
    refine Tracker.listed_map (f := fun x => if x = e then { e with passage := g } else x) rfl rfl (fun x => ?_) ht
    split
    next h => subst h; exact ⟨rfl, rfl, rfl, rfl, rfl⟩
    next => exact ⟨rfl, rfl, rfl, rfl, rfl⟩
  case strays => exact ht
  case insert hearly hlate hroom hnew => exact Tracker.listed_insert hearly hlate hroom hnew ht
  case refresh e x hearly hlate hknown =>
    obtain ⟨hroom, hnew⟩ := Tracker.remove_found ht hknown
    exact Tracker.listed_insert hearly hlate hroom hnew (Tracker.listed_of_sublist List.erase_sublist rfl ht)

theorem Act.listed (h : Act c s t) (hs : ListLaw s) : ListLaw t := by
  show t.tracker.Listed
  rcases h.tracker_cases with e | h | ⟨d, e⟩ | e | e
  · rw [e]
    exact hs
  · exact h.listed hs
  · rw [e]
    exact Tracker.listed_advance d hs
  · rw [e]
    exact Tracker.listed_map rfl rfl (fun _ => ⟨rfl, rfl, rfl, rfl, rfl⟩) hs
  · rw [e]
    simp [Tracker.Listed, Tracker.cleared]

/-- Settles O57: every act on the tracker keeps the list in order, its tags apart and its tolerances in range. -/
theorem listLawKept : Obligations.ListLawKept :=
  fun _ _ hs h => step_keeps (fun _ _ h => h) (fun _ _ h => h) (fun _ _ _ => Act.listed) hs h

end Sys2Proof.Machine
end

section
/-! PROOFS. The capacities and ranges of the role blocks and the fault unit. -/

namespace Sys2Proof.Machine

open Sys2Proof

variable {c : Instr} {s t : State}

/-! ### The entries of the list (R71) -/

theorem TrackerAct.entries_le {t u : Tracker} (h : TrackerAct t u) (ht : t.entries.length ≤ 32) :
    u.entries.length ≤ 32 := by
  cases h
  case remove => exact (List.length_erase_le).trans ht
  case passage => simpa [Tracker.replace] using ht
  case strays => exact ht
  case insert hroom _ => simpa [Tracker.insert] using hroom
  case refresh e x _ _ hknown =>
    have hlength := List.length_erase_of_mem (Tracker.find_some hknown).1
    have hpos := List.length_pos_of_mem (Tracker.find_some hknown).1
    simp only [Tracker.insert, Tracker.remove, insertEntry_length]
    omega

theorem Act.entries_le (h : Act c s t) (hs : s.tracker.entries.length ≤ 32) : t.tracker.entries.length ≤ 32 := by
  rcases h.tracker_cases with e | h | ⟨d, e⟩ | e | e
  · rwa [e]
  · exact h.entries_le hs
  · rw [e, Tracker.advance, (orderEntries_perm _).length_eq, List.length_map]
    exact hs
  · rw [e]
    simpa [Tracker.degrade] using hs
  · simp [e, Tracker.cleared]

/-! ### The sort unit (R153, R158, R168, R169) -/

/-- The capacities and ranges of the sort unit. -/
structure SortUnit.InRange (u : SortUnit) : Prop where
  actions : u.actions.length ≤ 16
  tally : u.tally.length ≤ 16
  runout : u.runout ≤ 65535
  gapCounter : u.gapCounter ≤ 65535

theorem SortUnit.close_inRange {u : SortUnit} (x : StackerNo) (r : CloseReason) (h : u.InRange) :
    (u.close x r).1.InRange := by
  obtain ⟨hactions, htally, hrunout, hgap⟩ := h
  obtain ⟨hcactions, -, -, hcgap, -, -, hcrunout⟩ := u.close_rest x r
  exact ⟨by rwa [hcactions], (u.addTally_spec _ htally).2.1, by rwa [hcrunout], by rwa [hcgap]⟩

theorem SortUnit.lostBatch_inRange {u : SortUnit} (im : Image) (p : Piece) (h : u.InRange) :
    (u.lostBatch im p).1.InRange := by
  unfold SortUnit.lostBatch
  split
  · exact h
  · simp only []
    split_ifs
    · exact h
    · exact h
    · exact ⟨h.actions, h.tally, h.runout, h.gapCounter⟩
    · exact h
    · exact u.close_inRange _ _ h

theorem SortUnit.countOn_inRange {u : SortUnit} (im : Image) (x : StackerNo) (p : Piece) (m : Bool) (h : u.InRange) :
    (u.countOn im x p m).1.InRange := by
  have hstacked (k : Stacker) : SortUnit.InRange { u with stackers := u.stackers.set x k } :=
    ⟨h.actions, h.tally, h.runout, h.gapCounter⟩
  unfold SortUnit.countOn
  simp only []
  split_ifs
  · exact SortUnit.close_inRange _ _ (hstacked _)
  · exact SortUnit.close_inRange _ _ (hstacked _)
  · exact hstacked _

theorem SortUnit.countPiece_inRange {u : SortUnit} (im : Image) (x : StackerNo) (p : Piece) (m : Bool) (h : u.InRange) :
    (u.countPiece im x p m).1.InRange := by
  unfold SortUnit.countPiece
  simp only []
  split_ifs
  · exact ⟨h.actions, h.tally, h.runout, h.gapCounter⟩
  · obtain ⟨hactions, htally, hrunout, hgap⟩ := u.close_inRange x .profile h
    exact ⟨hactions, htally, hrunout, hgap⟩
  · exact SortUnit.countOn_inRange im x p m h

theorem SortUnit.count_inRange {u : SortUnit} (im : Image) (d : Dest) (p : Piece) (m : Bool) (h : u.InRange) :
    (u.count im d p m).1.InRange := by
  cases d with
  | stacker x => exact SortUnit.countPiece_inRange im x p m h
  | runout =>
    have hcounted : SortUnit.InRange { u with runout := min 65535 (u.runout + 1) } :=
      ⟨h.actions, h.tally, Nat.min_le_left _ _, h.gapCounter⟩
    simp only [SortUnit.count, SortUnit.countRunout]
    split
    · exact SortUnit.lostBatch_inRange im p hcounted
    · exact hcounted

theorem SortUnit.hasRoom_iff {u : SortUnit} {new : List Action} :
    u.hasRoom new = true ↔ u.actions.length + (needPlaces new).length ≤ 16 := decide_eq_true_iff

/-- Actions with room in the list leave it within its capacity (R158). -/
theorem SortUnit.place_inRange {u : SortUnit} {pulse : Timer} {new : List Action} (hroom : u.hasRoom new = true)
    (h : u.InRange) : (u.place pulse new).InRange := by
  obtain ⟨hstacks, hperm⟩ := SortUnit.place_spec pulse new u
  have hlength := hperm.length_eq
  rw [SortUnit.hasRoom_iff] at hroom
  rw [List.length_append] at hlength
  exact ⟨by omega, by rw [hstacks.tally]; exact h.tally, by rw [hstacks.runout]; exact h.runout,
    by rw [hstacks.gapCounter]; exact h.gapCounter⟩

/-- The gap that a piece is taken to follow at (R157). -/
def SortUnit.gapFor (u : SortUnit) (p : SortPiece) : Nat := if p.sighted then u.entryGap else 0

/-- The comparison of a piece's destination with the last route decision (R157). -/
def SortUnit.routed (u : SortUnit) (im : Image) (parked : Bool) (p : SortPiece) : RouteOutcome :=
  compareRoute im parked u.lastRoute (u.destination im parked p).dest (u.gapFor p) p.length p.lateness

/-- The new actions of a piece: SET ROUTE first, then its blade firings (R157, R158). -/
def SortUnit.newActions (u : SortUnit) (im : Image) (parked : Bool) (p : SortPiece) : List Action :=
  (u.routed im parked p).setRoute ++ bladeActions (u.routed im parked p).counted (u.destination im parked p).firings

/-- The sort unit with the new actions of a piece placed, where the list has room (R158). -/
def SortUnit.placedFor (u : SortUnit) (im : Image) (parked : Bool) (pulse : Timer) (p : SortPiece) : SortUnit :=
  { u with lastRoute := (u.routed im parked p).lastRoute }.place pulse (u.newActions im parked p)

/-- The sort unit after a decision (R152 to R158). -/
theorem SortUnit.decide_unit (u : SortUnit) (im : Image) (parked : Bool) (pulse : Timer) (p : SortPiece) :
    (u.decide im parked pulse p).1 =
      if u.hasRoom (u.newActions im parked p) = true then
        { ((u.placedFor im parked pulse p).count im (u.routed im parked p).counted p.piece (u.routed im parked p).mixed).1
          with entryGap := 0 }
      else { (u.count im u.lastRoute p.piece true).1 with entryGap := 0 } := by
  by_cases h : u.hasRoom (u.newActions im parked p) = true
  · rw [if_pos h]
    exact congrArg Prod.fst (if_pos h)
  · rw [if_neg h]
    exact congrArg Prod.fst (if_neg h)

theorem SortUnit.decide_inRange {u : SortUnit} (im : Image) (parked : Bool) (pulse : Timer) (p : SortPiece)
    (h : u.InRange) : (u.decide im parked pulse p).1.InRange := by
  rw [SortUnit.decide_unit]
  split
  next hroom =>
    have hplaced : (u.placedFor im parked pulse p).InRange :=
      SortUnit.place_inRange (u := { u with lastRoute := (u.routed im parked p).lastRoute }) hroom
        ⟨h.actions, h.tally, h.runout, h.gapCounter⟩
    obtain ⟨hactions, htally, hrunout, hgap⟩ := SortUnit.count_inRange im (u.routed im parked p).counted p.piece
      (u.routed im parked p).mixed hplaced
    exact ⟨hactions, htally, hrunout, hgap⟩
  next =>
    obtain ⟨hactions, htally, hrunout, hgap⟩ := SortUnit.count_inRange im u.lastRoute p.piece true h
    exact ⟨hactions, htally, hrunout, hgap⟩

theorem SortUnit.dischargeDone_inRange {u : SortUnit} (im : Image) (x : StackerNo) (h : u.InRange) :
    (u.dischargeDone im x).1.InRange := by
  have hstacked (k : Stacker) : SortUnit.InRange { u with stackers := u.stackers.set x k } :=
    ⟨h.actions, h.tally, h.runout, h.gapCounter⟩
  unfold SortUnit.dischargeDone
  simp only []
  split_ifs
  · exact hstacked _
  · exact SortUnit.close_inRange _ _ (hstacked _)
  · exact SortUnit.close_inRange _ _ (hstacked _)
  · exact hstacked _

theorem SortUnit.move_inRange {u : SortUnit} (d : Int) (h : u.InRange) : (u.move d).InRange := by
  refine ⟨?_, h.tally, h.runout, addTravel_le _ _⟩
  simp only [SortUnit.move]
  split <;> simpa using h.actions

theorem SortUnit.advance_inRange {u : SortUnit} (pulse : Timer) (d : Int) (h : u.InRange) :
    (u.advance pulse d).InRange := by
  have hmoved := u.move_inRange d h
  unfold SortUnit.advance
  split
  · have hstacks := (SortUnit.performAll_stacks pulse ((u.move d).actions.filter fun a => Decidable.decide (a.countdown ≤ 0))
      { u.move d with actions := (u.move d).actions.filter fun a => Decidable.decide (0 < a.countdown) }).1
    refine ⟨?_, ?_, ?_, ?_⟩
    · rw [SortUnit.performDue_actions]
      exact (List.length_filter_le _ _).trans hmoved.actions
    · exact (congrArg List.length hstacks.tally).trans_le hmoved.tally
    · exact hstacks.runout.trans_le hmoved.runout
    · exact hstacks.gapCounter.trans_le hmoved.gapCounter
  · exact hmoved

theorem SortAct.inRange {im : Image} {u v : SortUnit} (h : SortAct im u v) (hu : u.InRange) : v.InRange := by
  cases h
  case decide => exact SortUnit.decide_inRange _ _ _ _ hu
  case lostBatch => exact SortUnit.lostBatch_inRange _ _ hu
  case close => exact SortUnit.close_inRange _ _ hu
  case dischargeDone => exact SortUnit.dischargeDone_inRange _ _ hu
  case leadingEdge =>
    unfold SortUnit.leadingEdge
    split
    · exact ⟨hu.actions, hu.tally, hu.runout, hu.gapCounter⟩
    · exact hu
  case trailingEdge => exact ⟨hu.actions, hu.tally, hu.runout, Nat.zero_le _⟩
  case parkBegin => exact ⟨Nat.zero_le _, hu.tally, hu.runout, hu.gapCounter⟩

theorem SortUnit.cleared_inRange {u : SortUnit} (h : u.InRange) : (SortUnit.cleared u.runout u.tally).InRange :=
  ⟨Nat.zero_le _, h.tally, h.runout, le_rfl⟩

theorem State.departed_sort (s : State) : s.departed.sort = .cleared s.sort.runout s.sort.tally := by
  unfold State.departed
  split <;> rfl

theorem State.holeCompleted_sort (s : State) : s.holeCompleted.sort = s.sort := by
  unfold State.holeCompleted
  split <;> rfl

/-- A frame put touches no sort unit. -/
theorem State.put_sort (s : State) (n : Notice) (age : Nat) : (s.put n age).1.sort = s.sort := by
  unfold State.put
  split
  · simp only []
    split
    · rfl
    · unfold State.discardReport
      split
      · unfold State.holeDiscarded
        split <;> rfl
      all_goals rfl
  · rfl

theorem Act.sort_cases (h : Act c s t) :
    t.sort = s.sort ∨ (s.onLine = true ∧ SortAct s.image s.sort t.sort)
      ∨ t.sort = { s.sort with bladeTimer := .stopped } ∨ (∃ n, t.sort = { s.sort with tally := s.sort.tally.drop n })
      ∨ (∃ d, t.sort = s.sort.advance s.bladePulse d) ∨ t.sort = .cleared s.sort.runout s.sort.tally
      ∨ t.sort = .cleared 0 [] := by
  cases h
  case sort hline h => exact .inr (.inl ⟨hline, h⟩)
  case bladeEnds => exact .inr (.inr (.inl rfl))
  case tallyTaken n => exact .inr (.inr (.inr (.inl ⟨n, rfl⟩)))
  case put n age _ => exact .inl (s.put_sort n age)
  case openHole x f n _ _ _ _ _ _ => exact .inl ((s.holdOpen x f).put_sort n 0)
  case holeSent => exact .inl (State.holeCompleted_sort _)
  case moveAll d _ =>
    simp only [State.moveAll]
    split
    · exact .inr (.inr (.inr (.inr (.inl ⟨d, rfl⟩))))
    · exact .inl rfl
  case move h =>
    cases h
    case leave => exact .inr (.inr (.inr (.inr (.inr (.inl s.departed_sort)))))
    case lockOut => exact .inr (.inr (.inr (.inr (.inr (.inl rfl)))))
    case reset => exact .inr (.inr (.inr (.inr (.inr (.inr rfl)))))
    all_goals exact .inl rfl
  all_goals exact .inl rfl

theorem Act.sort_inRange (h : Act c s t) (hs : s.sort.InRange) : t.sort.InRange := by
  rcases h.sort_cases with e | ⟨-, h⟩ | e | ⟨n, e⟩ | ⟨d, e⟩ | e | e
  · rwa [e]
  · exact h.inRange hs
  · rw [e]
    exact ⟨hs.actions, hs.tally, hs.runout, hs.gapCounter⟩
  · rw [e]
    exact ⟨hs.actions, by simpa using Nat.le_add_right_of_le hs.tally, hs.runout, hs.gapCounter⟩
  · rw [e]
    exact SortUnit.advance_inRange _ _ hs
  · rw [e]
    exact SortUnit.cleared_inRange hs
  · rw [e]
    exact ⟨Nat.zero_le _, Nat.zero_le _, Nat.zero_le _, le_rfl⟩

/-! ### The feed unit (R121, R128, R138) -/

/-- The capacities and ranges of the feed unit. -/
structure FeedUnit.InRange (f : FeedUnit) : Prop where
  queue : f.queue.length ≤ 2
  map : f.map.length ≤ 24
  patience : f.patience ≤ 65535

theorem FeedUnit.cleared_inRange (b : Bool) : (FeedUnit.cleared b).InRange :=
  ⟨Nat.zero_le _, Nat.zero_le _, Nat.zero_le _⟩

theorem FeedAct.inRange {f g : FeedUnit} (h : FeedAct f g) (hf : f.InRange) : g.InRange := by
  obtain ⟨hqueue, hmap, hpatience⟩ := hf
  cases h
  case work hm hq hp => exact ⟨hq.trans hqueue, by rwa [hm], hp.elim id fun h => by rwa [h]⟩
  case record hroom => exact ⟨by simpa using hroom, hmap, hpatience⟩
  case stretch hroom _ => exact ⟨hqueue, by simpa using hroom, hpatience⟩
  case stretches hlength _ => exact ⟨hqueue, hlength.trans hmap, hpatience⟩

/-- The hole unit ended by a discard report of its HOLE (R144). -/
theorem State.holeDiscarded_feed (s : State) :
    s.holeDiscarded.feed = s.feed
      ∨ s.holeDiscarded.feed = { s.feed with map := withoutOwnHole s.feed.map, patience := 0 } := by
  unfold State.holeDiscarded
  split
  · exact .inr rfl
  · exact .inl rfl
  · exact .inl rfl

theorem State.put_feed (s : State) (n : Notice) (age : Nat) :
    (s.put n age).1.feed = s.feed
      ∨ (s.put n age).1.feed = { s.feed with map := withoutOwnHole s.feed.map, patience := 0 } := by
  unfold State.put
  split
  · simp only []
    split
    · exact .inl rfl
    · unfold State.discardReport
      split
      · exact State.holeDiscarded_feed _
      all_goals exact .inl rfl
  · exact .inl rfl

theorem State.put_feed_inRange (n : Notice) (age : Nat) (h : s.feed.InRange) : (s.put n age).1.feed.InRange := by
  rcases s.put_feed n age with e | e <;> rw [e]
  · exact h
  · exact ⟨h.queue, (List.length_filter_le _ _).trans h.map, Nat.zero_le _⟩

theorem Act.feed_inRange (h : Act c s t) (hs : s.feed.InRange) : t.feed.InRange := by
  cases h
  case feed h => exact h.inRange hs
  case spreader => exact ⟨hs.queue, hs.map, hs.patience⟩
  case put n age _ => exact State.put_feed_inRange n age hs
  case dropOwnHole => exact ⟨hs.queue, (List.length_filter_le _ _).trans hs.map, hs.patience⟩
  case openHole x f n _ hroom _ _ _ _ =>
    refine State.put_feed_inRange n 0 ⟨hs.queue, ?_, hs.patience⟩
    simpa [State.holdOpen] using hroom
  case stretchesPass => exact ⟨hs.queue, (List.length_filter_le _ _).trans hs.map, hs.patience⟩
  case holeSent =>
    unfold State.holeCompleted
    split
    · exact ⟨hs.queue, by simpa using hs.map, hs.patience⟩
    · exact hs
    · exact hs
  case move h =>
    cases h
    case leave =>
      unfold State.departed
      split <;> exact FeedUnit.cleared_inRange _
    case lockOut => exact FeedUnit.cleared_inRange _
    case reset => exact FeedUnit.cleared_inRange _
    all_goals exact hs
  all_goals exact hs

/-! ### The eyes' loss counts (R100) -/

theorem Eye.advance_losses (e : Eye) (d : Int) : (e.advance d).losses = e.losses := by
  unfold Eye.advance
  split
  · rfl
  · split <;> rfl

theorem Act.losses_le (h : Act c s t) (hs : ∀ k, (s.eyes.get k).losses ≤ 15) (k : Lane) :
    (t.eyes.get k).losses ≤ 15 := by
  cases h
  case eyes e hlosses => exact (hlosses k).elim id fun h => h.trans_le (hs k)
  case put n age _ => rw [(s.put_quiet n age).eyes]; exact hs k
  case openHole x f n _ _ _ _ _ _ => rw [((s.holdOpen x f).put_quiet n 0).eyes]; exact hs k
  case holeSent => unfold State.holeCompleted; split <;> exact hs k
  case moveAll d _ =>
    simp only [State.moveAll, Quad.get_mapAt, Eye.advance_losses]
    exact hs k
  case move h =>
    cases h
    case join => simp [State.joined, State.renewEyes, Eye.renewed]
    case leave =>
      unfold State.departed
      split <;> simp [State.unfrozen, State.clearTracking, State.renewEyes, Eye.renewed, Eye.unfrozen, State.clearPort]
    case lockOut => simp [State.lockOut, State.clearTracking, State.renewEyes, Eye.renewed, State.clearPort]
    case reset => fin_cases k <;> exact Nat.zero_le _
    all_goals exact hs k
  all_goals exact hs k

theorem Act.capacities (h : Act c s t) (hs : Capacities s) : Capacities t := by
  obtain ⟨hentries, hqueue, hmap, hpatience, hactions, htally, hrunout, hgap, hcounts, hlosses⟩ := hs
  have hfeed := h.feed_inRange ⟨hqueue, hmap, hpatience⟩
  have hsort := h.sort_inRange ⟨hactions, htally, hrunout, hgap⟩
  exact ⟨h.entries_le hentries, hfeed.queue, hfeed.map, hfeed.patience, hsort.actions, hsort.tally, hsort.runout,
    hsort.gapCounter, h.counts_le hcounts, h.losses_le hlosses⟩

/-- Settles O55: every act keeps each block within its capacities. -/
theorem capacitiesKept : Obligations.CapacitiesKept :=
  fun _ _ hs h => step_keeps (fun _ _ h => h) (fun _ _ h => h) (fun _ _ _ => Act.capacities) hs h

end Sys2Proof.Machine
end

section
/-! PROOFS. The role blocks and the travel unit rest off the line. -/

namespace Sys2Proof.Machine

open Sys2Proof

variable {c : Instr} {s t : State}

/-- The role blocks and the travel unit at their cleared values. -/
structure Resting (s : State) : Prop where
  tracker : s.tracker = .cleared
  feed : s.feed = .cleared s.feed.spreader
  hole : s.hole = .cleared
  sort : s.sort = .cleared s.sort.runout s.sort.tally
  fraction : s.travel.fraction = 0
  lost : s.travel.lost = false
  lossTimer : s.travel.lossTimer = .stopped

theorem atRest_iff : AtRest s ↔ (s.onLine = false → Resting s) :=
  ⟨fun h hoff => have ⟨h1, h2, h3, h4, h5, h6, h7⟩ := h hoff; ⟨h1, h2, h3, h4, h5, h6, h7⟩,
    fun h hoff => have ⟨h1, h2, h3, h4, h5, h6, h7⟩ := h hoff; ⟨h1, h2, h3, h4, h5, h6, h7⟩⟩

/-- With no HOLE of the hole unit's in the queue, a frame put touches neither it nor the feed unit (R144). -/
theorem State.put_of_frame_none (n : Notice) (age : Nat) (h : s.hole.frame = .none) :
    (s.put n age).1.feed = s.feed ∧ (s.put n age).1.hole = s.hole := by
  have hdiscarded (q : List Slot) (y : Slot) :
      (State.discardReport { s with port := { s.port with queue := q } } y).feed = s.feed
        ∧ (State.discardReport { s with port := { s.port with queue := q } } y).hole = s.hole := by
    unfold State.discardReport
    split
    · simp [State.holeDiscarded, h]
    all_goals exact ⟨rfl, rfl⟩
  unfold State.put
  split
  · simp only []
    split
    · exact ⟨rfl, rfl⟩
    · exact hdiscarded _ _
  · exact ⟨rfl, rfl⟩

theorem State.holeCompleted_of_frame_none (h : s.hole.frame = .none) : s.holeCompleted = s := by
  simp [State.holeCompleted, h]

/-- No act off the line, short of a move, stirs a block at rest. -/
theorem Act.resting (h : Act c s t) (hmove : ¬ Move c s t) (hoff : s.onLine = false) (hs : Resting s) : Resting t := by
  have hnone : s.hole.frame = .none := by rw [hs.hole]; rfl
  obtain ⟨htracker, hfeed, hhole, hsort, hfraction, hlost, htimer⟩ := id hs
  have hline {p : Prop} (h : s.onLine = true) : p := absurd h (by simp [hoff])
  cases h
  case move h => exact absurd h hmove
  case timeBase => exact ⟨htracker, hfeed, hhole, hsort, hfraction, hlost, htimer⟩
  case answer => exact ⟨htracker, hfeed, hhole, hsort, hfraction, hlost, htimer⟩
  case take => exact ⟨htracker, hfeed, hhole, hsort, hfraction, hlost, htimer⟩
  case ack => exact ⟨htracker, hfeed, hhole, hsort, hfraction, hlost, htimer⟩
  case eyes => exact ⟨htracker, hfeed, hhole, hsort, hfraction, hlost, htimer⟩
  case control => exact ⟨htracker, hfeed, hhole, hsort, hfraction, hlost, htimer⟩
  case port => exact ⟨htracker, hfeed, hhole, hsort, hfraction, hlost, htimer⟩
  case bladeEnds => exact ⟨htracker, hfeed, hhole, by rw [hsort]; rfl, hfraction, hlost, htimer⟩
  case tallyTaken => exact ⟨htracker, hfeed, hhole, by rw [hsort]; rfl, hfraction, hlost, htimer⟩
  case spreader => exact ⟨htracker, by rw [hfeed]; rfl, hhole, hsort, hfraction, hlost, htimer⟩
  case feed h _ => exact h.elim hline fun h => absurd hfeed h
  case travel h =>
    rcases h with h | ⟨hf, hl, ht⟩
    · exact hline h
    · exact ⟨htracker, hfeed, hhole, hsort, hf.trans hfraction, hl.trans hlost, ht.elim (·.trans htimer) id⟩
  case encoderLost h => exact absurd htimer h
  case put n age _ =>
    obtain ⟨hf, hh⟩ := State.put_of_frame_none n age hnone
    have hq := s.put_quiet n age
    exact ⟨hq.tracker.trans htracker, by rw [hf]; exact hfeed, hh.trans hhole,
      by rw [State.put_sort]; exact hsort, by rw [hq.travel]; exact hfraction, by rw [hq.travel]; exact hlost,
      by rw [hq.travel]; exact htimer⟩
  case holeSent =>
    rw [State.holeCompleted_of_frame_none (s := { s with port := s.port.sent }) hnone]
    exact ⟨htracker, hfeed, hhole, hsort, hfraction, hlost, htimer⟩
  case tracker h _ => exact hline h
  case sort h _ => exact hline h
  case askWithdraw h => exact hline h
  case dropOwnHole h => exact hline h
  case openHole h _ _ _ _ _ => exact hline h
  case stretchesPass h _ => exact hline h
  case moveAll h => exact hline h

/-- The station leaves the line with every block cleared. -/
theorem State.departed_resting (s : State) : Resting s.departed := by
  unfold State.departed
  split <;> constructor <;> rfl

theorem Move.atRest (h : Move c s t) (hstanding : Standing s) (hs : AtRest s) : AtRest t := by
  rw [atRest_iff] at *
  intro hoff
  have hkept (hsoff : s.onLine = false) (h1 : t.tracker = s.tracker) (h2 : t.feed = s.feed) (h3 : t.hole = s.hole)
      (h4 : t.sort = s.sort) (h5 : t.travel = s.travel) : Resting t := by
    obtain ⟨htracker, hfeed, hhole, hsort, hfraction, hlost, htimer⟩ := hs hsoff
    constructor <;> simp only [h1, h2, h3, h4, h5] <;> assumption
  have hunfrozen (h : s.spi.frozen = false) : s.onLine = false := by
    rcases (hstanding.of_not_frozen h).1 with h | h <;> simp [State.onLine, h]
  cases h
  case endDeparture => exact hkept hoff rfl rfl rfl rfl rfl
  case join => simp [State.joined, State.onLine] at hoff
  case leave => exact s.departed_resting
  case lockOut => constructor <;> rfl
  case settle => simp [State.onLine] at hoff
  case writeImage hfrozen _ _ => exact hkept (hunfrozen hfrozen) rfl rfl rfl rfl rfl
  case validate hfrozen _ _ => exact hkept (hunfrozen hfrozen) rfl rfl rfl rfl rfl
  case reset => constructor <;> rfl

theorem Act.atRest (h : Act c s t) (hstanding : Standing s) (hs : AtRest s) : AtRest t := by
  by_cases hmove : Move c s t
  · exact hmove.atRest hstanding hs
  · have hsame := h.sameStanding_or_move.resolve_right hmove
    rw [atRest_iff] at *
    exact fun hoff => h.resting hmove (hsame.onLine ▸ hoff) (hs (hsame.onLine ▸ hoff))

/-- Settles O58: off the line no act stirs a block at rest, and every way off the line clears the blocks. -/
theorem atRestKept : Obligations.AtRestKept := fun _ _ hstanding hs h =>
  (step_keeps (P := fun u => Standing u ∧ AtRest u) (fun _ _ h => h) (fun _ _ h => h)
    (fun _ _ _ hact h => ⟨hact.standing h.1, hact.atRest h.1 h.2⟩) ⟨hstanding, hs⟩ h).2

end Sys2Proof.Machine
end

section
/-! PROOFS. The halt set's laws and the announcement state. -/

namespace Sys2Proof.Machine

open Sys2Proof

variable {c : Instr} {s t : State}

/-! ### A valid image (R184, R189) -/

/-- Every field of an image that passes validation passes its check. -/
theorem Image.check_of_valid {im : Image} (h : Image.firstFailure im = none) {x : FieldCheck}
    (hx : x ∈ Image.fieldChecks im) : x.2 = true := by
  unfold Image.firstFailure at h
  split at h
  · simp at h
  · rw [Option.map_eq_none_iff, List.find?_eq_none] at h
    simpa using h x hx

theorem Image.address_of_valid {im : Image} (h : Image.firstFailure im = none) : isAddress (Image.address im) := by
  have hcheck := Image.check_of_valid h (x := Image.checkByte im 0x000 1 15) (by simp [Image.fieldChecks])
  simpa [Image.checkByte, isAddress, Image.address] using hcheck

/-! ### Addresses in the halt set (R62, R63) -/

theorem addressBit_getLsbD (a i : Nat) : (addressBit a).getLsbD i = (decide (i < 16) && decide (a = i)) := by
  rw [addressBit, BitVec.getLsbD_ofNat, Nat.testBit_two_pow]

theorem haltSet_ne_zero_of_bit {x : BitVec 16} {i : Nat} (h : x.getLsbD i = true) : x ≠ 0 := by
  rintro rfl
  simp at h

/-- The halt set's laws, of station control at a station with the own address given. -/
structure StationControl.Halts (k : StationControl) (line : Bool) (own : Nat) : Prop where
  off : line = false → k.haltSet = 0
  zero : k.haltSet.getLsbD 0 = false
  first : k.firstHalt ≠ none ↔ k.haltSet ≠ 0
  own : k.ownHalt ≠ none ↔ k.haltSet.getLsbD own = true
  quiet : line = false → k.departure = false → k.queued = none
  owed : k.owed ≠ none → k.queued ≠ none ∧ k.owed ≠ k.queued

theorem haltLaw_iff : HaltLaw s ↔ s.control.Halts s.onLine (Image.address s.image) :=
  ⟨fun ⟨h1, h2, h3, h4, h5, h6⟩ => ⟨h1, h2, h3, h4, h5, h6⟩, fun ⟨h1, h2, h3, h4, h5, h6⟩ => ⟨h1, h2, h3, h4, h5, h6⟩⟩

/-- The laws of an empty halt set. -/
theorem StationControl.halts_of_empty {k : StationControl} {line : Bool} {own : Nat} (hset : k.haltSet = 0)
    (hfirst : k.firstHalt = none) (hown : k.ownHalt = none) (hquiet : line = false → k.departure = false → k.queued = none)
    (howed : k.owed ≠ none → k.queued ≠ none ∧ k.owed ≠ k.queued) : k.Halts line own := by
  refine ⟨fun _ => hset, ?_, ?_, ?_, hquiet, howed⟩ <;> simp [hset, hfirst, hown]

namespace StationControl

variable {k : StationControl} {own a r : Nat} {tag : Option Tag}

/-- An address enters the halt set of a station on the line; the own halt's reason is there with the own address. -/
theorem addHalt_halts {x : Option OwnHalt} (h : k.Halts true own) (ha : isAddress a)
    (hown : x ≠ none ↔ own = a ∨ k.haltSet.getLsbD own = true) (hrange : own < 16) :
    ({ k with ownHalt := x }.addHalt a r tag).Halts true own where
  off h := by simp at h
  zero := by
    have hne : a ≠ 0 := by have := ha.1; omega
    simp only [addHalt, BitVec.getLsbD_or, h.zero, addressBit_getLsbD, hne]
    simp
  first := by
    have hset : k.haltSet ||| addressBit a ≠ 0 := by
      have hlt : a < 16 := by have := ha.2; omega
      exact haltSet_ne_zero_of_bit (i := a) (by simp [addressBit_getLsbD, hlt])
    simp only [addHalt]
    split
    next => exact iff_of_true (by simp) hset
    next hne => exact iff_of_true (h.first.mpr hne) hset
  own := by
    simp only [addHalt, BitVec.getLsbD_or, addressBit_getLsbD, hrange, Bool.or_eq_true, decide_true, Bool.true_and,
      decide_eq_true_eq]
    rw [hown]
    constructor
    · exact fun h => h.symm.imp id Eq.symm
    · exact fun h => h.symm.imp Eq.symm id
  quiet h := by simp at h
  owed := h.owed

/-- An address leaves the halt set of a station on the line; the own halt's reason leaves with the own address. -/
theorem removeHalt_halts {x : Option OwnHalt} (h : k.Halts true own)
    (hown : x ≠ none ↔ own ≠ a ∧ k.haltSet.getLsbD own = true) (hrange : own < 16) :
    ({ k.removeHalt a with ownHalt := x }).Halts true own where
  off h := by simp at h
  zero := by rw [removeHalt, BitVec.getLsbD_and, h.zero, Bool.false_and]
  first := by
    simp only [removeHalt]
    split
    next he => simp [he]
    next hne =>
      refine iff_of_true (h.first.mpr ?_) hne
      rintro he
      exact hne (by rw [he]; simp)
  own := by
    simp only [removeHalt, BitVec.getLsbD_and, BitVec.getLsbD_not, addressBit_getLsbD, hrange, decide_true, Bool.true_and,
      Bool.and_eq_true, Bool.not_eq_true', decide_eq_false_iff_not]
    rw [hown]
    exact ⟨fun ⟨h1, h2⟩ => ⟨h2, Ne.symm h1⟩, fun ⟨h1, h2⟩ => ⟨Ne.symm h2, h1⟩⟩
  quiet h := by simp at h
  owed := h.owed

theorem announceStep_halts {x : Announced} (h : k.Halts true own) : (k.announceStep x).1.Halts true own := by
  obtain ⟨hoff, hzero, hfirst, hown, hquiet, howed⟩ := h
  unfold announceStep
  split
  next hnone =>
    refine ⟨by simp, hzero, hfirst, hown, by simp, fun h => ?_⟩
    exact absurd hnone (howed h).1
  next q hq =>
    split
    next => exact ⟨by simp, hzero, hfirst, hown, by simp, fun h => absurd rfl h⟩
    next hne =>
      refine ⟨by simp, hzero, hfirst, hown, by simp, fun _ => ⟨by simp [hq], ?_⟩⟩
      simpa [hq] using Ne.symm hne

end StationControl

theorem ControlAct.halts {k : StationControl} (h : ControlAct c s k) (hstanding : Standing s)
    (hs : s.control.Halts s.onLine (Image.address s.image)) : k.Halts s.onLine (Image.address s.image) := by
  have hout_line (hout : s.ownHaltOut = true) : s.onLine = true := by
    by_contra hoff
    have hempty := hs.off (by simpa using hoff)
    simp [State.ownHaltOut, State.halted, hempty] at hout
  have haddress (hline : s.onLine = true) : isAddress (Image.address s.image) :=
    Image.address_of_valid (hstanding.of_onLine hline).2.2.2
  have hrange (hline : s.onLine = true) : Image.address s.image < 16 := by have := (haddress hline).2; omega
  cases h
  case raise hrunning =>
    have hline := State.onLine_of_running hrunning
    rw [hline] at hs ⊢
    exact StationControl.addHalt_halts hs (haddress hline) (by simp) (hrange hline)
  case announce hline =>
    rw [hline] at hs ⊢
    exact StationControl.announceStep_halts hs
  case resume hout =>
    have hline := hout_line hout
    rw [hline] at hs ⊢
    exact StationControl.announceStep_halts (StationControl.removeHalt_halts hs (by simp) (hrange hline))
  case peerHalt a r tag hline ha hpeer =>
    rw [hline] at hs ⊢
    exact StationControl.addHalt_halts (x := s.control.ownHalt) hs ha
      (by rw [hs.own, or_iff_right hpeer.symm]) (hrange hline)
  case peerResume a hline hpeer =>
    rw [hline] at hs ⊢
    exact StationControl.removeHalt_halts (x := s.control.ownHalt) hs
      (by rw [hs.own, and_iff_right hpeer.symm]) (hrange hline)
  case completed =>
    refine ⟨hs.off, hs.zero, hs.first, hs.own, fun hoff hdep => ?_, fun h => absurd rfl h⟩
    by_contra howed
    exact (hs.owed howed).1 (hs.quiet hoff hdep)
  case inputs => exact ⟨hs.off, hs.zero, hs.first, hs.own, hs.quiet, hs.owed⟩
  case draw => exact ⟨hs.off, hs.zero, hs.first, hs.own, hs.quiet, hs.owed⟩

/-! ### What an act does to station control -/

theorem State.put_control (s : State) (n : Notice) (age : Nat) : (s.put n age).1.control = s.control := by
  have hdiscarded (u : State) (y : Slot) : (u.discardReport y).control = u.control := by
    unfold State.discardReport
    split
    · unfold State.holeDiscarded
      split <;> rfl
    all_goals rfl
  unfold State.put
  split
  · simp only []
    split
    · rfl
    · exact hdiscarded _ _
  · rfl

theorem State.holeCompleted_control (s : State) : s.holeCompleted.control = s.control := by
  unfold State.holeCompleted
  split <;> rfl

theorem Act.control_cases (h : Act c s t) (hmove : ¬ Move c s t) :
    t.control = s.control ∨ ControlAct c s t.control := by
  cases h
  case move h => exact absurd h hmove
  case control h => exact .inr h
  case put n age _ => exact .inl (s.put_control n age)
  case openHole x f n _ _ _ _ _ _ => exact .inl ((s.holdOpen x f).put_control n 0)
  case holeSent => exact .inl (State.holeCompleted_control _)
  all_goals exact .inl rfl

theorem Move.halts (h : Move c s t) (hstanding : Standing s) (hs : s.control.Halts s.onLine (Image.address s.image)) :
    t.control.Halts t.onLine (Image.address t.image) := by
  have hunfrozen (h : s.spi.frozen = false) : s.onLine = false := by
    rcases (hstanding.of_not_frozen h).1 with h | h <;> simp [State.onLine, h]
  cases h
  case endDeparture hq ho =>
    exact ⟨hs.off, hs.zero, hs.first, hs.own, fun _ _ => hq, hs.owed⟩
  case join =>
    exact ⟨fun h => by simp [State.joined, State.onLine] at h, hs.zero, hs.first, hs.own,
      fun h => by simp [State.joined, State.onLine] at h, hs.owed⟩
  case leave =>
    unfold State.departed
    split
    next h =>
      rw [Bool.and_eq_true, Option.isNone_iff_eq_none] at h
      exact StationControl.halts_of_empty rfl rfl rfl (fun _ _ => h.1) hs.owed
    next => exact StationControl.halts_of_empty rfl rfl rfl (fun _ h => by simp at h) hs.owed
  case lockOut =>
    exact StationControl.halts_of_empty rfl rfl rfl (fun _ _ => rfl) (fun h => absurd rfl h)
  case settle =>
    exact ⟨fun h => by simp [State.onLine] at h, hs.zero, hs.first, hs.own, fun h => by simp [State.onLine] at h, hs.owed⟩
  case writeImage hfrozen _ _ =>
    have hoff := hunfrozen hfrozen
    have hset : s.control.haltSet = 0 := hs.off hoff
    have hnone : ¬ s.control.ownHalt ≠ none := by rw [hs.own, hset]; simp
    exact ⟨fun _ => hset, hs.zero, hs.first, by simpa [State.writeImage, hset] using hnone, fun _ => hs.quiet hoff, hs.owed⟩
  case validate hfrozen _ _ =>
    have hoff := hunfrozen hfrozen
    exact ⟨fun _ => hs.off hoff, hs.zero, hs.first, hs.own, fun _ => hs.quiet hoff, hs.owed⟩
  case reset =>
    exact StationControl.halts_of_empty rfl rfl rfl (fun _ _ => rfl) (fun h => absurd rfl h)

theorem Act.haltLaw (h : Act c s t) (hstanding : Standing s) (hs : HaltLaw s) : HaltLaw t := by
  rw [haltLaw_iff] at *
  by_cases hmove : Move c s t
  · exact hmove.halts hstanding hs
  · have hsame := h.sameStanding_or_move.resolve_right hmove
    have himage : t.image = s.image := hsame.image
    rw [hsame.onLine, himage]
    rcases h.control_cases hmove with e | h
    · rwa [e]
    · exact h.halts hstanding hs

/-- Settles O52: every act on station control keeps the halt set's laws. -/
theorem haltLawKept : Obligations.HaltLawKept := fun _ _ hstanding _ hs h =>
  (step_keeps (P := fun u => Standing u ∧ HaltLaw u) (fun _ _ h => h) (fun _ _ h => h)
    (fun _ _ _ hact h => ⟨hact.standing h.1, hact.haltLaw h.1 h.2⟩) ⟨hstanding, hs⟩ h).2

end Sys2Proof.Machine
end

section
/-! PROOFS. The line port's laws. -/

namespace Sys2Proof.Machine

open Sys2Proof

variable {c : Instr} {s t : State}

/-! ### The transmit queue (R39, R40) -/

/-- A queue within its capacity and in the order of its kinds, with `n` frames in send. -/
structure QueueLaw (q : List Slot) (n : Nat) : Prop where
  length : q.length ≤ 8
  sorted : q.Pairwise fun x y => x.notice.code ≤ y.notice.code
  inSend : (q.filter (·.inSend)).length = n

theorem queueLaw_nil : QueueLaw [] 0 := ⟨Nat.zero_le _, .nil, rfl⟩

/-- A change of the slots that leaves their kinds alone. -/
theorem QueueLaw.map {q : List Slot} {n m : Nat} {f : Slot → Slot} (h : QueueLaw q n)
    (hcode : ∀ x, (f x).notice.code = x.notice.code) (hsend : ((q.map f).filter (·.inSend)).length = m) :
    QueueLaw (q.map f) m := by
  refine ⟨by rw [List.length_map]; exact h.length, ?_, hsend⟩
  rw [List.pairwise_map]
  exact h.sorted.imp fun {a b} hab => by rwa [hcode, hcode]

theorem QueueLaw.sublist {q r : List Slot} {n m : Nat} (h : QueueLaw q n) (hr : r.Sublist q)
    (hsend : (r.filter (·.inSend)).length = m) : QueueLaw r m :=
  ⟨hr.length_le.trans h.length, h.sorted.sublist hr, hsend⟩

theorem queueLaw_insert {q : List Slot} {n : Nat} {x : Slot} (h : QueueLaw q n) (hroom : q.length < 8)
    (hx : x.inSend = false) : QueueLaw (insertSlot x q) n := by
  refine ⟨by rw [insertSlot_length]; omega, insertSlot_sorted x q h.sorted, ?_⟩
  rw [((insertSlot_perm x q).filter _).length_eq, List.filter_cons_of_neg (by simp [hx]), h.inSend]

/-- A frame put leaves the queue within its laws (R40). -/
theorem QueueLaw.put {q : List Slot} {n : Nat} {x : Slot} (h : QueueLaw q n) (hx : x.inSend = false) :
    QueueLaw (putFrame q x).1 n := by
  rcases putFrame_cases q x with ⟨hroom, e⟩ | ⟨l, y, r, -, rfl, hy, -, e⟩ | ⟨-, e⟩ <;> rw [e]
  · exact queueLaw_insert h hroom hx
  · have hlength := h.length
    have hsend := h.inSend
    have hrest : QueueLaw (l ++ r) n := by
      refine h.sublist ((List.sublist_cons_self y r).append_left l) ?_
      rw [← hsend]
      simp [hy]
    refine queueLaw_insert hrest ?_ hx
    simp at hlength ⊢
    omega
  · exact h

/-! ### The port -/

/-- The line port's laws, of a port that is to be active or not. -/
structure LinePort.Lawful (p : LinePort) (up : Prop) : Prop where
  active : p.active = true ↔ up
  inactive : p.active = false → p = LinePort.inactive
  queue : QueueLaw p.queue (if p.medium = .sending then 1 else 0)
  failures : p.failures ≤ 16
  offLine : p.offLine = true ↔ p.failures = 16
  silent : p.offLine = true → p.medium ≠ .sending
  timer : p.offLine = true ↔ p.offLineTimer ≠ .stopped

theorem portLaw_iff : PortLaw s ↔ s.port.Lawful (s.onLine = true ∨ s.control.departure = true) :=
  ⟨fun ⟨h1, h2, h3, h4, h5, h6, h7, h8, h9⟩ => ⟨h1, h2, ⟨h3, h4, h5⟩, h6, h7, h8, h9⟩,
    fun ⟨h1, h2, ⟨h3, h4, h5⟩, h6, h7, h8, h9⟩ => ⟨h1, h2, h3, h4, h5, h6, h7, h8, h9⟩⟩

namespace LinePort

variable {p : LinePort} {up : Prop}

theorem inactive_lawful (h : ¬ up) : LinePort.inactive.Lawful up :=
  ⟨by simp [inactive, h], fun _ => rfl, queueLaw_nil, Nat.zero_le _, by simp [inactive], by simp [inactive],
    by simp [inactive]⟩

/-- A new queue for an active port, with as many frames in send. -/
theorem Lawful.withQueue {q : List Slot} (h : p.Lawful up) (hactive : p.active = true)
    (hq : QueueLaw q (if p.medium = .sending then 1 else 0)) : LinePort.Lawful { p with queue := q } up :=
  ⟨h.active, fun hoff => by simp [hactive] at hoff, hq, h.failures, h.offLine, h.silent, h.timer⟩

theorem inSend_none_iff : p.inSend = none ↔ (p.queue.filter (·.inSend)).length = 0 := by
  rw [List.length_eq_zero_iff, List.filter_eq_nil_iff, inSend, List.find?_eq_none]

/-- A frame in send belongs to an active port that sends, and is not off-line. -/
theorem Lawful.of_inSend {x : Slot} (h : p.Lawful up) (hx : p.inSend = some x) :
    p.active = true ∧ p.medium = .sending ∧ p.offLine = false := by
  have hsome : (p.queue.filter (·.inSend)).length ≠ 0 := fun hzero => by simp [inSend_none_iff.mpr hzero] at hx
  rw [h.queue.inSend] at hsome
  have hmedium : p.medium = .sending := by
    by_contra hne
    exact hsome (if_neg hne)
  refine ⟨?_, hmedium, ?_⟩
  · by_contra hoff
    rw [h.inactive (by simpa using hoff)] at hmedium
    simp [LinePort.inactive] at hmedium
  · by_contra hoff
    exact h.silent (by simpa using hoff) hmedium

theorem backToWaiting_inSend (p : LinePort) : (p.backToWaiting.queue.filter (·.inSend)).length = 0 := by
  simp [backToWaiting, List.filter_map, Function.comp_def]

theorem Notice_stamped_code (n : Notice) (st : Stamp) : (n.stamped st).code = n.code := by
  cases n <;> rfl

/-- The first waiting frame put in send, no other being (R39). -/
theorem startFirst_queueLaw {q : List Slot} (h : QueueLaw q 0) (hq : q ≠ []) : QueueLaw (startFirst q) 1 := by
  cases q with
  | nil => exact absurd rfl hq
  | cons x rest =>
    have hnone := h.inSend
    rw [List.length_eq_zero_iff, List.filter_eq_nil_iff] at hnone
    have hx : x.inSend = false := by simpa using hnone x (List.mem_cons_self)
    have hrest : (rest.filter (·.inSend)) = [] :=
      List.filter_eq_nil_iff.mpr fun y hy => hnone y (List.mem_cons_of_mem _ hy)
    obtain ⟨hfirst, htail⟩ := List.pairwise_cons.mp h.sorted
    have hstart : startFirst (x :: rest) = x.started :: rest := by simp [startFirst, hx]
    rw [hstart]
    refine ⟨h.length, List.pairwise_cons.mpr ⟨fun y hy => ?_, htail⟩, ?_⟩
    · rw [Slot.started, Notice_stamped_code]
      exact hfirst y hy
    · rw [List.filter_cons_of_pos (by simp [Slot.started]), hrest]
      rfl

end LinePort

theorem LinePort.Lawful.sent {p : LinePort} {up : Prop} {x : Slot} (hp : p.Lawful up) (hx : p.inSend = some x) :
    p.sent.Lawful up := by
  obtain ⟨hactive, hmedium, hoff⟩ := hp.of_inSend hx
  have hstopped : ¬ p.offLineTimer ≠ .stopped := by rw [← hp.timer, hoff]; simp
  refine ⟨hp.active, fun h => absurd (hactive.symm.trans h) (by simp), ?_, Nat.zero_le _, ?_, ?_, ?_⟩
  · refine hp.queue.sublist List.filter_sublist ?_
    simp [LinePort.sent, List.filter_filter]
  · simp [LinePort.sent, hoff]
  · simp [LinePort.sent]
  · simpa [LinePort.sent, hoff] using hstopped

theorem PortAct.lawful {p q : LinePort} {up : Prop} (h : PortAct p q) (hp : p.Lawful up) : q.Lawful up := by
  cases h
  case medium m hactive hidle hm =>
    refine ⟨hp.active, fun hoff => by simp [hactive] at hoff, ?_, hp.failures, hp.offLine, fun _ => hm, hp.timer⟩
    have hqueue := hp.queue
    rw [if_neg hidle] at hqueue
    rwa [if_neg hm]
  case start hsend hqueue =>
    simp only [LinePort.maySend, Bool.and_eq_true, beq_iff_eq, Bool.not_eq_true', Option.isNone_iff_eq_none] at hsend
    obtain ⟨⟨⟨hactive, hidle⟩, hoff⟩, -⟩ := hsend
    have hlaw := hp.queue
    rw [if_neg (by simp [hidle])] at hlaw
    exact ⟨hp.active, fun h => by simp [hactive] at h, LinePort.startFirst_queueLaw hlaw hqueue, hp.failures, hp.offLine,
      fun h => by simp [hoff] at h, hp.timer⟩
  case contention x hx =>
    obtain ⟨hactive, hmedium, hoff⟩ := hp.of_inSend hx
    exact ⟨hp.active, fun h => absurd (hactive.symm.trans h) (by simp),
      hp.queue.map (fun _ => rfl) p.backToWaiting_inSend, hp.failures, hp.offLine, by simp, hp.timer⟩
  case failure x timer hx htimer =>
    obtain ⟨hactive, hmedium, hoff⟩ := hp.of_inSend hx
    have hstopped : ¬ p.offLineTimer ≠ .stopped := by rw [← hp.timer, hoff]; simp
    have hcount : p.nextFailures ≤ 16 := Nat.min_le_left _ _
    refine ⟨hp.active, fun h => absurd (hactive.symm.trans h) (by simp),
      hp.queue.map (fun _ => rfl) p.backToWaiting_inSend, hcount, ?_, by simp [LinePort.failed], ?_⟩
    · by_cases hn : p.nextFailures = Config.offLineFailures
      · simp [LinePort.failed, hn, Config.offLineFailures]
      · exact iff_of_false (by simp [LinePort.failed, hn, hoff]) hn
    · by_cases hn : p.nextFailures = Config.offLineFailures
      · simp [LinePort.failed, hn, htimer]
      · simpa [LinePort.failed, hn, hoff] using hstopped
  case sent x hx _ => exact hp.sent hx
  case offLineEnds =>
    refine ⟨hp.active, fun h => ?_, hp.queue, Nat.zero_le _, by simp, by simp, by simp⟩
    rw [hp.inactive h]
    rfl

/-! ### What an act does to the port -/

theorem State.discardReport_port (s : State) (x : Slot) : (s.discardReport x).port = s.port := by
  unfold State.discardReport
  split
  · unfold State.holeDiscarded
    split <;> rfl
  all_goals rfl

theorem State.put_port (s : State) (n : Notice) (age : Nat) :
    (s.put n age).1.port
      = if s.port.active then { s.port with queue := (putFrame s.port.queue ⟨n, age, false⟩).1 } else s.port := by
  unfold State.put
  split
  · simp only []
    split
    · rfl
    · exact State.discardReport_port _ _
  · rfl

theorem State.holeCompleted_port (s : State) : s.holeCompleted.port = s.port := by
  unfold State.holeCompleted
  split <;> rfl

theorem State.put_portLawful {up : Prop} (n : Notice) (age : Nat) (h : s.port.Lawful up) :
    (s.put n age).1.port.Lawful up := by
  rw [State.put_port]
  split
  next hactive => exact h.withQueue hactive (h.queue.put rfl)
  next => exact h

/-- A withdraw takes no frame in send (R42). -/
theorem withoutWaitingHole_inSend (q : List Slot) :
    (withoutWaitingHole q).filter (·.inSend) = q.filter (·.inSend) := by
  unfold withoutWaitingHole
  rw [List.filter_filter]
  refine List.filter_congr fun x _ => ?_
  cases hx : x.notice <;> simp

theorem LinePort.Lawful.withdrawn {p : LinePort} {up : Prop} (h : p.Lawful up) :
    LinePort.Lawful { p with queue := withoutWaitingHole p.queue } up := by
  by_cases hactive : p.active = true
  · refine h.withQueue hactive (h.queue.sublist List.filter_sublist ?_)
    exact (congrArg List.length (withoutWaitingHole_inSend p.queue)).trans h.queue.inSend
  · have he := h.inactive (by simpa using hactive)
    have hsame : ({ p with queue := withoutWaitingHole p.queue } : LinePort) = p := by rw [he]; rfl
    rwa [hsame]

theorem LinePort.Lawful.advanced {p : LinePort} {up : Prop} (d : Int) (h : p.Lawful up) : (p.advance d).Lawful up := by
  by_cases hactive : p.active = true
  · refine h.withQueue hactive (h.queue.map (fun x => ?_) ?_)
    · split <;> rfl
    · rw [List.filter_map, List.length_map, ← h.queue.inSend]
      congr 2
      funext x
      simp only [Function.comp]
      split <;> rfl
  · have hsame : p.advance d = p := by rw [h.inactive (by simpa using hactive)]; rfl
    rwa [hsame]

theorem Act.port_lawful {up : Prop} (h : Act c s t) (hmove : ¬ Move c s t) (hs : s.port.Lawful up) :
    t.port.Lawful up := by
  cases h
  case move h => exact absurd h hmove
  case port h => exact h.lawful hs
  case put n age _ => exact State.put_portLawful n age hs
  case askWithdraw => exact hs.withdrawn
  case openHole x f n _ _ _ _ _ _ => exact State.put_portLawful (s := s.holdOpen x f) n 0 hs
  case holeSent x hx _ => rw [State.holeCompleted_port]; exact hs.sent hx
  case moveAll d _ => exact hs.advanced d
  all_goals exact hs

theorem Move.portLaw (h : Move c s t) (hstanding : Standing s) (hs : PortLaw s) : PortLaw t := by
  rw [portLaw_iff] at *
  have hunfrozen (h : s.spi.frozen = false) : s.onLine = false := by
    rcases (hstanding.of_not_frozen h).1 with h | h <;> simp [State.onLine, h]
  cases h
  case endDeparture hdeparture _ _ =>
    have hstate := hstanding.2.2.1 hdeparture
    exact LinePort.inactive_lawful (by simp [State.clearPort, State.onLine, hstate])
  case join =>
    exact ⟨by simp [State.joined, State.onLine], by simp [State.joined], queueLaw_nil, Nat.zero_le _,
      by simp [State.joined], by simp [State.joined], by simp [State.joined]⟩
  case leave hline =>
    have hdeparture := (hstanding.of_onLine hline).2.1
    unfold State.departed
    split
    next =>
      refine LinePort.inactive_lawful ?_
      simp [State.clearPort, State.unfrozen, State.onLine, hdeparture]
    next =>
      obtain ⟨h1, h2, h3, h4, h5, h6, h7⟩ := hs.withdrawn
      exact ⟨iff_of_true (h1.mpr (.inl hline)) (.inr rfl), h2, h3, h4, h5, h6, h7⟩
  case lockOut hstate =>
    have hdeparture := (hstanding.of_onLine (State.onLine_iff.mpr (.inl hstate))).2.1
    refine LinePort.inactive_lawful ?_
    simp [State.lockOut, State.onLine, hdeparture]
  case settle hstate =>
    have hline : s.onLine = true := State.onLine_iff.mpr (.inl hstate)
    obtain ⟨h1, h2, h3, h4, h5, h6, h7⟩ := hs
    exact ⟨iff_of_true (h1.mpr (.inl hline)) (.inl rfl), h2, h3, h4, h5, h6, h7⟩
  case writeImage o data _ hfrozen hdeparture _ =>
    have hoff := hunfrozen hfrozen
    have hstate := s.writeImage_state_of (o := o.toNat) (data := data) (hstanding.of_not_frozen hfrozen).1
    have hup : ¬ ((s.writeImage o.toNat data).onLine = true ∨ (s.writeImage o.toNat data).control.departure = true) := by
      rw [State.onLine, hstate]
      simp [State.writeImage, hdeparture]
    have hdown : s.port.active = false := by simpa [hoff, hdeparture] using hs.active
    have hport : (s.writeImage o.toNat data).port = LinePort.inactive := hs.inactive hdown
    rw [hport]
    exact LinePort.inactive_lawful hup
  case validate x _ hfrozen hdeparture hx =>
    have hoff := hunfrozen hfrozen
    have hup : ¬ ((s.withStationState x).onLine = true ∨ (s.withStationState x).control.departure = true) := by
      rcases hx with ⟨rfl, -⟩ | rfl <;> simp [State.withStationState, State.onLine, hdeparture]
    have hdown : s.port.active = false := by simpa [hoff, hdeparture] using hs.active
    have hport : (s.withStationState x).port = LinePort.inactive := hs.inactive hdown
    rw [hport]
    exact LinePort.inactive_lawful hup
  case reset => exact LinePort.inactive_lawful (by simp [State.afterReset, State.onLine])

theorem Act.portLaw (h : Act c s t) (hstanding : Standing s) (hs : PortLaw s) : PortLaw t := by
  by_cases hmove : Move c s t
  · exact hmove.portLaw hstanding hs
  · have hsame := h.sameStanding_or_move.resolve_right hmove
    rw [portLaw_iff] at *
    rw [hsame.onLine, hsame.departure]
    exact h.port_lawful hmove hs

/-- Settles O53: every act on the port keeps its laws. -/
theorem portLawKept : Obligations.PortLawKept := fun _ _ hstanding _ hs h =>
  (step_keeps (P := fun u => Standing u ∧ PortLaw u) (fun _ _ h => h) (fun _ _ h => h)
    (fun _ _ _ hact h => ⟨hact.standing h.1, hact.portLaw h.1 h.2⟩) ⟨hstanding, hs⟩ h).2

end Sys2Proof.Machine
end

section
/-! PROOFS. The belt map's and the hole unit's laws. -/

namespace Sys2Proof.Machine

open Sys2Proof

variable {c : Instr} {s t : State}

/-! ### HOLE frames in a queue (R39, R40, R42) -/

/-- How many HOLE frames a queue holds. -/
def holeFrames (q : List Slot) : Nat := (q.filter Slot.isHole).length

theorem any_isHole_iff {q : List Slot} : q.any Slot.isHole = true ↔ holeFrames q ≠ 0 := by
  rw [holeFrames, Ne, List.length_eq_zero_iff, List.filter_eq_nil_iff]
  simp

theorem holeFrames_insertSlot (x : Slot) (q : List Slot) :
    holeFrames (insertSlot x q) = holeFrames q + if x.isHole then 1 else 0 := by
  rw [holeFrames, ((insertSlot_perm x q).filter _).length_eq, List.filter_cons]
  split <;> simp [holeFrames]

theorem holeFrames_middle (l r : List Slot) (y : Slot) :
    holeFrames (l ++ y :: r) = holeFrames (l ++ r) + if y.isHole then 1 else 0 := by
  simp only [holeFrames, List.filter_append, List.filter_cons, List.length_append]
  split <;> simp [Nat.add_assoc]

theorem holeFrames_map {f : Slot → Slot} (hf : ∀ x, (f x).notice.code = x.notice.code) (q : List Slot) :
    holeFrames (q.map f) = holeFrames q := by
  have hkind : Slot.isHole ∘ f = Slot.isHole := funext fun x => by simp only [Function.comp, Slot.isHole, hf]
  rw [holeFrames, List.filter_map, List.length_map, hkind]
  rfl

theorem isHole_iff {n : Notice} {a : Nat} {b : Bool} : (⟨n, a, b⟩ : Slot).isHole = true ↔ n.code = 6 := by
  simp [Slot.isHole]

theorem State.discardReport_of_hole (x : Slot) (h : x.isHole = true) : s.discardReport x = s.holeDiscarded := by
  unfold State.discardReport
  cases hx : x.notice <;> simp [Slot.isHole, hx, Notice.code] at h ⊢

theorem State.discardReport_of_other (x : Slot) (h : x.isHole = false) : s.discardReport x = s := by
  unfold State.discardReport
  cases hx : x.notice <;> simp [Slot.isHole, hx, Notice.code] at h ⊢

/-- The state with another transmit queue. -/
def State.withQueue (s : State) (q : List Slot) : State := { s with port := { s.port with queue := q } }

/-- All that a frame put can do: nothing at an inactive port; else the frame enters a queue with room; or the last waiting
frame, of a higher kind, makes room for it; or it is itself put out (R40). -/
theorem State.put_cases (s : State) (n : Notice) (age : Nat) :
    (s.port.active = false ∧ (s.put n age).1 = s)
      ∨ (s.port.active = true ∧ s.port.queue.length < 8
          ∧ (s.put n age).1 = s.withQueue (insertSlot ⟨n, age, false⟩ s.port.queue))
      ∨ (s.port.active = true ∧ ∃ l y r, s.port.queue = l ++ y :: r ∧ n.code < y.notice.code
          ∧ (s.put n age).1 = (s.withQueue (insertSlot ⟨n, age, false⟩ (l ++ r))).discardReport y)
      ∨ (s.port.active = true ∧ (s.put n age).1 = s.discardReport ⟨n, age, false⟩) := by
  unfold State.put
  split
  next hactive =>
    rcases putFrame_cases s.port.queue ⟨n, age, false⟩ with ⟨hroom, e⟩ | ⟨l, y, r, -, hq, -, hcode, e⟩ | ⟨-, e⟩ <;> rw [e]
    · exact .inr (.inl ⟨hactive, hroom, rfl⟩)
    · exact .inr (.inr (.inl ⟨hactive, l, y, r, hq, hcode, rfl⟩))
    · exact .inr (.inr (.inr ⟨hactive, rfl⟩))
  next hactive => exact .inl ⟨by simpa using hactive, rfl⟩

/-! ### The laws -/

/-- The laws of the belt map and the hole unit, by what they speak of. -/
structure Holes (map : List Stretch) (hole : HoleUnit) (q : List Slot) (line : Bool) : Prop where
  room : map.length ≤ 24
  own : ownHoles map = if hole.fit = none then 0 else 1
  one : holeFrames q ≤ 1
  onLine : line = true → (hole.frame ≠ .none ↔ holeFrames q ≠ 0)
  offLine : line = false → hole.frame = .none

theorem holeLaw_iff : HoleLaw s ↔ Holes s.feed.map s.hole s.port.queue s.onLine :=
  ⟨fun ⟨h1, h2, h3, h4, h5⟩ => ⟨h1, h2, h3, fun h => (h4 h).trans any_isHole_iff, h5⟩,
    fun ⟨h1, h2, h3, h4, h5⟩ => ⟨h1, h2, h3, fun h => (h4 h).trans any_isHole_iff.symm, h5⟩⟩

section
variable {map : List Stretch} {hole : HoleUnit} {q r : List Slot} {line : Bool}

theorem Holes.withMap {m : List Stretch} (h : Holes map hole q line) (hroom : m.length ≤ 24)
    (hown : ownHoles m = ownHoles map) : Holes m hole q line :=
  ⟨hroom, hown.trans h.own, h.one, h.onLine, h.offLine⟩

theorem Holes.withFrames (h : Holes map hole q line) (hr : holeFrames r = holeFrames q) : Holes map hole r line :=
  ⟨h.room, h.own, hr.trans_le h.one, fun hl => by rw [hr]; exact h.onLine hl, h.offLine⟩

theorem ownHoles_withoutOwnHole (m : List Stretch) : ownHoles (withoutOwnHole m) = 0 := by
  simp [ownHoles, withoutOwnHole, List.filter_filter]

theorem length_withoutOwnHole_le (m : List Stretch) : (withoutOwnHole m).length ≤ m.length := List.length_filter_le _ _

/-- The own hole leaves the map with its fit. -/
theorem Holes.dropped (h : Holes map hole q line) : Holes (withoutOwnHole map) { hole with fit := none } q line :=
  ⟨(length_withoutOwnHole_le map).trans h.room, ownHoles_withoutOwnHole map, h.one, h.onLine, h.offLine⟩

/-- The HOLE is in the queue no more, and no frame of the hole unit's is looked for. -/
theorem Holes.framed (h : Holes map hole q line) (hr : holeFrames r = 0) :
    Holes map { hole with frame := .none } r line :=
  ⟨h.room, h.own, by omega, fun _ => iff_of_false (by simp) (by simp [hr]), fun _ => rfl⟩

/-- With no HOLE in the queue on the line, the frame state is NONE. -/
theorem Holes.frame_none (h : Holes map hole q line) (hq : holeFrames q = 0) : hole.frame = .none := by
  cases line with
  | false => exact h.offLine rfl
  | true => exact not_not.mp fun hne => (h.onLine rfl).mp hne hq

theorem ownHoles_insertStretch (x : Stretch) (m : List Stretch) :
    ownHoles (insertStretch x m) = ownHoles m + if x.kind == .ownHole then 1 else 0 := by
  rw [ownHoles, ((insertStretch_perm x m).filter _).length_eq, List.filter_cons]
  split <;> simp [ownHoles]

end

/-- A HOLE put out of the queue ends the own hole that it announced, or is forgotten (R144). -/
theorem State.holeDiscarded_holes {q : List Slot} {line : Bool} (h : Holes s.feed.map s.hole q line)
    (hr : holeFrames s.port.queue = 0) :
    Holes s.holeDiscarded.feed.map s.holeDiscarded.hole s.holeDiscarded.port.queue line := by
  unfold State.holeDiscarded
  split
  next => exact h.dropped.framed hr
  next => exact h.framed hr
  next hnone =>
    have hsame : s.hole = { s.hole with frame := .none } := by rw [← hnone]
    rw [hsame]
    exact h.framed hr

theorem State.put_holes {line : Bool} {n : Notice} {age : Nat} (hn : n.code ≠ 6)
    (h : Holes s.feed.map s.hole s.port.queue line) :
    Holes (s.put n age).1.feed.map (s.put n age).1.hole (s.put n age).1.port.queue line := by
  have hnot : (⟨n, age, false⟩ : Slot).isHole = false := by simp [Slot.isHole, hn]
  rcases s.put_cases n age with ⟨-, e⟩ | ⟨-, -, e⟩ | ⟨-, l, y, r, hq, -, e⟩ | ⟨-, e⟩ <;> rw [e]
  · exact h
  · exact h.withFrames (by simp [State.withQueue, holeFrames_insertSlot, hnot])
  · have hkept : holeFrames (insertSlot ⟨n, age, false⟩ (l ++ r)) = holeFrames (l ++ r) := by
      simp [holeFrames_insertSlot, hnot]
    have hcount := holeFrames_middle l r y
    rw [← hq] at hcount
    cases hy : y.isHole with
    | true =>
      rw [State.discardReport_of_hole y hy]
      have hone := h.one
      have hgone : holeFrames (l ++ r) = 0 := by
        rw [hy, if_pos rfl] at hcount
        omega
      exact State.holeDiscarded_holes (s := s.withQueue _) h (hkept.trans hgone)
    | false =>
      rw [State.discardReport_of_other y hy]
      rw [hy] at hcount
      exact h.withFrames (hkept.trans hcount.symm)
  · rw [State.discardReport_of_other _ hnot]
    exact h

/-- The own hole enters the map and its HOLE the queue, or the HOLE is put out and the own hole ends (R143, R144). -/
theorem State.openHole_holes {x : Stretch} {f : Fit} {n : Notice} (hactive : s.port.active = true)
    (hroom : s.feed.map.length < 24) (hown : s.ownHole = none) (hframe : s.hole.frame = .none) (hx : x.kind = .ownHole)
    (hn : n.code = 6) (h : Holes s.feed.map s.hole s.port.queue true) :
    Holes ((s.holdOpen x f).put n 0).1.feed.map ((s.holdOpen x f).put n 0).1.hole
      ((s.holdOpen x f).put n 0).1.port.queue true := by
  have hhole : (⟨n, 0, false⟩ : Slot).isHole = true := by simp [Slot.isHole, hn]
  have hempty : holeFrames s.port.queue = 0 := not_not.mp fun hne => (h.onLine rfl).mpr hne hframe
  have hnone : ownHoles s.feed.map = 0 := by
    rw [ownHoles, List.length_eq_zero_iff, List.filter_eq_nil_iff]
    exact List.find?_eq_none.mp hown
  have hlength : (Machine.insertStretch x s.feed.map).length ≤ 24 := by rw [insertStretch_length]; omega
  have hcount : ownHoles (Machine.insertStretch x s.feed.map) = 1 := by
    rw [ownHoles_insertStretch, hnone, hx]
    rfl
  have hentered {q : List Slot} (hq : holeFrames q = 1) :
      Holes (Machine.insertStretch x s.feed.map) ⟨some f, .current⟩ q true :=
    ⟨hlength, by simpa using hcount, hq.le, fun _ => iff_of_true (by simp) (by simp [hq]), fun h => by simp at h⟩
  rcases (s.holdOpen x f).put_cases n 0 with ⟨hoff, -⟩ | ⟨-, -, e⟩ | ⟨-, l, y, r, hq, hcode, e⟩ | ⟨-, e⟩
  · exact absurd (hactive.symm.trans hoff) (by simp)
  · rw [e]
    exact hentered ((holeFrames_insertSlot _ _).trans (by rw [hhole]; exact congrArg (· + 1) hempty))
  · have hy : y.isHole = false := by
      have : y.notice.code ≠ 6 := by omega
      simpa [Slot.isHole] using this
    have hq : s.port.queue = l ++ y :: r := hq
    have hrest : holeFrames (l ++ r) = 0 := by
      have := holeFrames_middle l r y
      rw [← hq, hempty] at this
      omega
    rw [e, State.discardReport_of_other y hy]
    exact hentered ((holeFrames_insertSlot _ _).trans (by rw [hhole, hrest]; rfl))
  · rw [e, State.discardReport_of_hole _ hhole]
    refine ⟨(length_withoutOwnHole_le _).trans hlength, ownHoles_withoutOwnHole _, h.one, fun _ => ?_, fun h => by simp at h⟩
    exact iff_of_false (fun h => h rfl) (fun h => h hempty)

/-- What is left of the queue's HOLE frames after a withdraw is in the answer (R42). -/
theorem holdsHole_eq (q : List Slot) : holdsHole q = q.any Slot.isHole := by
  unfold holdsHole
  congr 1
  funext x
  cases hx : x.notice <;> simp [Slot.isHole, hx, Notice.code]

theorem holeFrames_sublist {q r : List Slot} (h : r.Sublist q) : holeFrames r ≤ holeFrames q :=
  (h.filter _).length_le

theorem State.askWithdraw_holes (h : Holes s.feed.map s.hole s.port.queue true) :
    Holes s.askWithdraw.feed.map s.askWithdraw.hole s.askWithdraw.port.queue true := by
  have hone := (holeFrames_sublist (q := s.port.queue) (r := withoutWaitingHole s.port.queue) List.filter_sublist).trans
    h.one
  refine ⟨h.room, h.own, hone, fun _ => ?_, fun h => by simp at h⟩
  have hanswer : s.withdraw.2 = true ↔ holeFrames (withoutWaitingHole s.port.queue) = 0 := by
    rw [State.withdraw, Bool.not_eq_true', holdsHole_eq, ← not_iff_not, Bool.not_eq_false, any_isHole_iff]
  show (if s.withdraw.2 then FrameState.none else .abandoned) ≠ .none ↔ _
  split
  next hgone => exact iff_of_false (by simp) (not_not.mpr (hanswer.mp hgone))
  next hkept => exact iff_of_true (by simp) fun h => hkept (hanswer.mpr h)

/-- Stretches that have passed leave, and an own hole that is not spent is none of them (R127, R150). -/
theorem stretchesPass_ownHoles (hs : Holes s.feed.map s.hole s.port.queue true) (hspent : s.holeSpent = false) :
    ownHoles (s.feed.map.filter fun x => decide (0 ≤ x.tail)) = ownHoles s.feed.map := by
  have hown := hs.own
  have hle : ownHoles (s.feed.map.filter fun x => decide (0 ≤ x.tail)) ≤ ownHoles s.feed.map :=
    (List.filter_sublist.filter _).length_le
  split at hown
  · omega
  next hfit =>
    obtain ⟨f, hf⟩ := Option.ne_none_iff_exists'.mp hfit
    have hsome : s.ownHole ≠ none := by
      intro hnone
      rw [ownHoles, (List.filter_eq_nil_iff (p := fun x : Stretch => x.kind == .ownHole)).mpr
        (List.find?_eq_none.mp hnone)] at hown
      simp at hown
    obtain ⟨x, hx⟩ := Option.ne_none_iff_exists'.mp hsome
    have htail : 0 ≤ x.tail := by
      simp only [State.holeSpent, hx, hf, decide_eq_false_iff_not] at hspent
      omega
    have hmem : x ∈ (s.feed.map.filter fun x => decide (0 ≤ x.tail)).filter fun x => x.kind == .ownHole :=
      List.mem_filter.mpr ⟨List.mem_filter.mpr ⟨List.mem_of_find?_eq_some hx, by simpa using htail⟩,
        List.find?_some (p := fun y : Stretch => y.kind == .ownHole) hx⟩
    have hpos := List.length_pos_of_mem hmem
    simp only [ownHoles] at hown hle hpos ⊢
    omega

/-- The HOLE in send was the one HOLE of the queue. -/
theorem LinePort.sent_holeFrames {p : LinePort} {x : Slot} (hx : p.inSend = some x) (hkind : x.notice.code = 6)
    (hone : holeFrames p.queue ≤ 1) : holeFrames p.sent.queue = 0 := by
  have hmem := List.mem_of_find?_eq_some hx
  have hsend : x.inSend = true := List.find?_some (p := fun y : Slot => y.inSend) hx
  obtain ⟨l, r, hq⟩ := List.append_of_mem hmem
  have hhole : x.isHole = true := by simp [Slot.isHole, hkind]
  have hrest : holeFrames (l ++ r) = 0 := by
    have hcount := holeFrames_middle l r x
    rw [← hq, hhole, if_pos rfl] at hcount
    omega
  have hle := holeFrames_sublist (q := l ++ r) (r := p.sent.queue) (by
    rw [LinePort.sent, hq, List.filter_append, List.filter_cons_of_neg (by simp [hsend]), ← List.filter_append]
    exact List.filter_sublist)
  omega

/-- A frame of another kind in send, the only one, leaves the queue's HOLE frames (R37). -/
theorem LinePort.sent_holeFrames_of_other {p : LinePort} {x : Slot} (hx : p.inSend = some x) (hkind : x.notice.code ≠ 6)
    (hsend : (p.queue.filter (·.inSend)).length ≤ 1) : holeFrames p.sent.queue = holeFrames p.queue := by
  have hmem : x ∈ p.queue.filter (·.inSend) :=
    List.mem_filter.mpr ⟨List.mem_of_find?_eq_some hx, List.find?_some (p := fun y : Slot => y.inSend) hx⟩
  have honly : ∀ y ∈ p.queue, y.inSend = true → y = x := by
    intro y hy hys
    obtain ⟨z, hz⟩ : ∃ z, p.queue.filter (·.inSend) = [z] :=
      List.length_eq_one_iff.mp (le_antisymm hsend (List.length_pos_of_mem hmem))
    have hyz : y ∈ p.queue.filter (·.inSend) := List.mem_filter.mpr ⟨hy, hys⟩
    rw [hz, List.mem_singleton] at hmem hyz
    rw [hmem, hyz]
  rw [holeFrames, holeFrames, LinePort.sent, List.filter_filter]
  refine congrArg List.length (List.filter_congr fun y hy => ?_)
  cases hys : y.inSend with
  | false => simp
  | true =>
    rw [honly y hy hys]
    simp [Slot.isHole, hkind]

theorem startFirst_holeFrames (q : List Slot) : holeFrames (startFirst q) = holeFrames q := by
  induction q with
  | nil => rfl
  | cons x rest ih =>
    simp only [startFirst]
    split
    · simp only [holeFrames, List.filter_cons] at ih ⊢
      split <;> simp [ih]
    · have hkind : x.started.isHole = x.isHole := by
        simp only [Slot.isHole, Slot.started, LinePort.Notice_stamped_code]
      simp only [holeFrames, List.filter_cons, hkind]
      split <;> rfl

theorem PortAct.holeFrames {p p' : LinePort} (h : PortAct p p') (hsend : (p.queue.filter (·.inSend)).length ≤ 1) :
    Machine.holeFrames p'.queue = Machine.holeFrames p.queue := by
  cases h
  case start => exact startFirst_holeFrames _
  case contention => exact holeFrames_map (f := fun x => { x with inSend := false }) (fun _ => rfl) _
  case failure => exact holeFrames_map (f := fun x => { x with inSend := false }) (fun _ => rfl) _
  case sent hx hkind => exact LinePort.sent_holeFrames_of_other hx hkind hsend
  all_goals rfl

theorem FeedAct.holes {f g : FeedUnit} {hole : HoleUnit} {q : List Slot} {line : Bool} (h : FeedAct f g)
    (hf : Holes f.map hole q line) : Holes g.map hole q line := by
  cases h
  case work hm _ _ => rwa [hm]
  case record => exact hf
  case stretch hroom hkind =>
    exact hf.withMap (by rw [insertStretch_length]; exact hroom) (by simp [ownHoles_insertStretch, hkind])
  case stretches hlength hown => exact hf.withMap (hlength.trans hf.room) hown

theorem Act.holes (h : Act c s t) (hmove : ¬ Move c s t) (hport : PortLaw s)
    (hs : Holes s.feed.map s.hole s.port.queue s.onLine) : Holes t.feed.map t.hole t.port.queue s.onLine := by
  cases h
  case move h => exact absurd h hmove
  case feed _ hact => exact hact.holes hs
  case port h =>
    have hsend : (s.port.queue.filter (·.inSend)).length ≤ 1 := by
      rw [hport.2.2.2.2.1]
      split <;> omega
    exact hs.withFrames (h.holeFrames hsend)
  case put hn => exact State.put_holes hn hs
  case askWithdraw hline => rw [hline] at hs ⊢; exact State.askWithdraw_holes hs
  case dropOwnHole => exact hs.dropped
  case openHole hline hroom hown hframe hx hn =>
    rw [hline] at hs ⊢
    exact State.openHole_holes (hport.1.mpr (.inl hline)) hroom hown hframe hx hn hs
  case stretchesPass hline hspent =>
    rw [hline] at hs ⊢
    exact hs.withMap ((List.length_filter_le _ _).trans hs.room) (stretchesPass_ownHoles hs hspent)
  case holeSent x hx hkind =>
    have hgone := LinePort.sent_holeFrames hx hkind hs.one
    unfold State.holeCompleted
    split
    · refine (hs.withMap (by simpa using hs.room) (ownHoles_map (fun y => ?_) _)).framed hgone
      split <;> rfl
    · exact hs.framed hgone
    next hnone =>
      have hsame : s.hole = { s.hole with frame := .none } := by rw [← hnone]
      show Holes s.feed.map s.hole _ _
      rw [hsame]
      exact hs.framed hgone
  case moveAll d _ =>
    refine hs.withFrames (holeFrames_map (fun x => ?_) _)
    split <;> rfl
  all_goals exact hs

theorem Move.holes (h : Move c s t) (hstanding : Standing s) (hs : Holes s.feed.map s.hole s.port.queue s.onLine) :
    Holes t.feed.map t.hole t.port.queue t.onLine := by
  have hcleared {b : Bool} {q : List Slot} {line : Bool} (hq : holeFrames q ≤ 1) (hline : line = false) :
      Holes (FeedUnit.cleared b).map HoleUnit.cleared q line :=
    ⟨Nat.zero_le _, rfl, hq, fun h => by simp [hline] at h, fun _ => rfl⟩
  have hkept (hsoff : s.onLine = false) (q : List Slot) (line : Bool) (hq : holeFrames q ≤ 1)
      (hline : line = true → holeFrames q = 0) : Holes s.feed.map s.hole q line :=
    ⟨hs.room, hs.own, hq, fun h => iff_of_false (fun hne => hne (hs.offLine hsoff)) (fun hne => hne (hline h)),
      fun _ => hs.offLine hsoff⟩
  have hunfrozen (h : s.spi.frozen = false) : s.onLine = false := by
    rcases (hstanding.of_not_frozen h).1 with h | h <;> simp [State.onLine, h]
  cases h
  case endDeparture hdeparture _ _ =>
    have hstate := hstanding.2.2.1 hdeparture
    exact hkept (by simp [State.onLine, hstate]) _ _ (Nat.zero_le _) fun _ => rfl
  case join hstate _ => exact hkept (by simp [State.onLine, hstate]) _ _ (Nat.zero_le _) fun _ => rfl
  case leave =>
    have hone := (holeFrames_sublist (q := s.port.queue) (r := withoutWaitingHole s.port.queue) List.filter_sublist).trans
      hs.one
    unfold State.departed
    split
    · exact hcleared (Nat.zero_le _) rfl
    · exact hcleared hone rfl
  case lockOut => exact hcleared (Nat.zero_le _) rfl
  case settle hstate =>
    have hline : s.onLine = true := State.onLine_iff.mpr (.inl hstate)
    rw [hline] at hs
    exact hs
  case writeImage o data _ hfrozen _ _ =>
    have hstate := s.writeImage_state_of (o := o.toNat) (data := data) (hstanding.of_not_frozen hfrozen).1
    exact hkept (hunfrozen hfrozen) _ _ hs.one fun h => by simp [State.onLine, hstate] at h
  case validate x _ hfrozen _ hx =>
    refine hkept (hunfrozen hfrozen) _ _ hs.one fun h => ?_
    rcases hx with ⟨rfl, -⟩ | rfl <;> simp [State.onLine, State.withStationState] at h
  case reset => exact hcleared (Nat.zero_le _) rfl

theorem Act.holeLaw (h : Act c s t) (hstanding : Standing s) (hport : PortLaw s) (hs : HoleLaw s) : HoleLaw t := by
  rw [holeLaw_iff] at *
  by_cases hmove : Move c s t
  · exact hmove.holes hstanding hs
  · rw [(h.sameStanding_or_move.resolve_right hmove).onLine]
    exact h.holes hmove hport hs

/-- Settles O54: every act keeps the own hole with its fit, and its HOLE with the frame state. -/
theorem holeLawKept : Obligations.HoleLawKept := fun _ _ hstanding _ hport _ hs h =>
  (step_keeps (P := fun u => Standing u ∧ PortLaw u ∧ HoleLaw u) (fun _ _ h => h) (fun _ _ h => h)
    (fun _ _ _ hact h => ⟨hact.standing h.1, hact.portLaw h.1 h.2.1, hact.holeLaw h.1 h.2.1 h.2.2⟩)
    ⟨hstanding, hport, hs⟩ h).2.2

end Sys2Proof.Machine
end

section
/-! PROOFS. The stackers' law and the action list's. -/

namespace Sys2Proof.Machine

open Sys2Proof

variable {c : Instr} {s t : State}

/-! ### The stackers (R161, R163) -/

/-- A stacker within its law: collecting, it holds nothing back and fewer pieces than its target; discharging, it holds no
stack and at most 3 pieces back. -/
structure Stacker.Fits (im : Image) (k : Stacker) : Prop where
  collecting : k.discharging = false → k.pre.count = 0 ∧ (k.stack.count = 0 ∨ k.stack.count < targetOf im k.stack.profile)
  discharging : k.discharging = true → k.stack.count = 0 ∧ k.pre.count ≤ 3

theorem Stacker.fits_closed (im : Image) : Stacker.Fits im ⟨true, .empty, .empty, false⟩ :=
  ⟨fun h => by simp at h, fun _ => ⟨rfl, Nat.zero_le _⟩⟩

theorem Stacker.fits_cleared (im : Image) : Stacker.Fits im .cleared :=
  ⟨fun _ => ⟨rfl, .inl rfl⟩, fun h => by simp [Stacker.cleared] at h⟩

/-- Every stacker within its law. -/
def SortUnit.Fits (u : SortUnit) (im : Image) : Prop := ∀ c, Stacker.Fits im (u.stackers.get c)

namespace SortUnit

variable {u : SortUnit} {im : Image} {x : StackerNo} {p : Piece}

theorem fits_of_same {v : SortUnit} (h : v.stackers = u.stackers) (hu : u.Fits im) : v.Fits im := by
  intro c
  rw [h]
  exact hu c

theorem fits_set {k : Stacker} (hu : u.Fits im) (hk : Stacker.Fits im k) :
    SortUnit.Fits { u with stackers := u.stackers.set x k } im := by
  intro c
  simp only [Quad.get_set]
  split
  · exact hk
  · exact hu c

theorem close_fits (reason : CloseReason) (hu : u.Fits im) : (u.close x reason).1.Fits im := by
  intro c
  rw [close_stackers, Quad.get_set]
  split
  · exact Stacker.fits_closed im
  · exact hu c

/-- A close fits whatever the closed stacker held. -/
theorem close_set_fits {k : Stacker} (reason : CloseReason) (hu : u.Fits im) :
    (SortUnit.close { u with stackers := u.stackers.set x k } x reason).1.Fits im := by
  intro c
  rw [close_stackers, Quad.set_set, Quad.get_set]
  split
  · exact Stacker.fits_closed im
  · exact hu c

theorem lostBatch_fits (hu : u.Fits im) : (u.lostBatch im p).1.Fits im := by
  unfold lostBatch
  split
  · exact hu
  next x _ =>
    simp only []
    split_ifs with _ hdischarging
    · exact hu
    · exact hu
    · exact fits_set hu ⟨fun h => absurd (hdischarging.symm.trans h) (by simp), (hu x).discharging⟩
    · exact hu
    · exact close_fits _ hu

theorem dischargeDone_fits (hu : u.Fits im) : (u.dischargeDone im x).1.Fits im := by
  have hback (h : (u.stackers.get x).pre.count = 0
      ∨ (u.stackers.get x).pre.count < targetOf im (u.stackers.get x).pre.profile) :
      Stacker.Fits im ⟨false, (u.stackers.get x).pre, .empty, false⟩ := ⟨fun _ => ⟨rfl, h⟩, fun h => by simp at h⟩
  unfold dischargeDone
  simp only []
  split_ifs with _ hzero htarget
  · exact fits_set hu (hback (.inl hzero))
  · exact close_set_fits _ hu
  · exact close_set_fits _ hu
  · refine fits_set hu (hback ?_)
    by_cases hzero : (u.stackers.get x).pre.count = 0
    · exact .inl hzero
    · exact .inr (not_le.mp fun h => htarget ⟨hzero, h⟩)

/-- A piece that joins a pre-stack finds room there, or is mixed (R156, R163). -/
theorem joinPre_fits {m : Bool} {k : Stacker} (hk : Stacker.Fits im k) (hdischarging : k.discharging = true)
    (hroom : m = false → k.preFull im = false) : Stacker.Fits im (k.joinPre im p m) := by
  obtain ⟨hstack, hpre⟩ := hk.discharging hdischarging
  unfold Stacker.joinPre
  split
  · exact ⟨fun h => absurd (hdischarging.symm.trans h) (by simp), fun _ => ⟨hstack, hpre⟩⟩
  next hnot =>
    have hfree : k.preFull im = false := by
      cases m with
      | false => exact hroom rfl
      | true => simpa using hnot
    have hlt : k.pre.count < 3 := by
      simp only [Stacker.preFull, Bool.or_eq_false_iff, decide_eq_false_iff_not] at hfree
      exact not_le.mp hfree.1.1
    exact ⟨fun h => absurd (hdischarging.symm.trans h) (by simp), fun _ => ⟨hstack, hlt⟩⟩

theorem countOn_fits {m : Bool} (hcollecting : (u.stackers.get x).discharging = false) (hu : u.Fits im) :
    (u.countOn im x p m).1.Fits im := by
  unfold countOn
  simp only []
  split_ifs with _ htarget
  · exact close_set_fits _ hu
  · exact close_set_fits _ hu
  · refine fits_set hu ⟨fun _ => ⟨((hu x).collecting hcollecting).1, .inr (not_le.mp htarget)⟩, fun h => ?_⟩
    exact absurd (hcollecting.symm.trans h) (by simp)

theorem countPiece_fits {m : Bool} (hu : u.Fits im)
    (hroom : m = false → (u.stackers.get x).discharging = true → (u.stackers.get x).preFull im = false) :
    (u.countPiece im x p m).1.Fits im := by
  unfold countPiece
  simp only []
  split_ifs with hdischarging hother
  · exact fits_set hu (joinPre_fits (hu x) hdischarging fun hm => hroom hm hdischarging)
  · refine fits_set (close_fits _ hu) ?_
    rw [close_stackers, Quad.get_set_same]
    exact joinPre_fits (Stacker.fits_closed im) rfl fun _ => rfl
  · exact countOn_fits (by simpa using hdischarging) hu

theorem count_fits {d : Dest} {m : Bool} (hu : u.Fits im)
    (hroom : m = false → ∀ x, d = .stacker x → (u.stackers.get x).discharging = true →
      (u.stackers.get x).preFull im = false) : (u.count im d p m).1.Fits im := by
  cases d with
  | stacker x => exact countPiece_fits hu fun hm => hroom hm x rfl
  | runout =>
    have hcounted : SortUnit.Fits { u with runout := min 65535 (u.runout + 1) } im := fits_of_same rfl hu
    simp only [count, countRunout]
    split
    · exact lostBatch_fits hcounted
    · exact hcounted

/-- A destination that is a stacker has room for the piece (R156). -/
theorem destination_room {parked : Bool} {q : SortPiece} (h : (u.destination im parked q).dest = .stacker x)
    (hdischarging : (u.stackers.get x).discharging = true) : (u.stackers.get x).preFull im = false := by
  unfold destination at h
  split at h
  · simp at h
  · simp only [] at h
    split at h
    · simp at h
    · simp at h
    next y _ _ =>
      unfold stage6 at h
      simp only [] at h
      split_ifs at h with hfull hother
      have hxy : y = x := by simpa using h
      subst hxy
      simpa [hdischarging] using hfull

theorem compareRoute_counted {parked : Bool} {last d : Dest} {g l n : Nat}
    (h : (compareRoute im parked last d g l n).mixed = false) : (compareRoute im parked last d g l n).counted = d := by
  unfold compareRoute at h ⊢
  split_ifs at h ⊢ <;> rfl

theorem placedFor_stacks {parked : Bool} {pulse : Timer} {q : SortPiece} :
    (u.placedFor im parked pulse q).stackers = u.stackers :=
  (place_spec pulse (u.newActions im parked q) _).1.stackers

theorem decide_fits {parked : Bool} {pulse : Timer} {q : SortPiece} (hu : u.Fits im) :
    (u.decide im parked pulse q).1.Fits im := by
  rw [decide_unit]
  split
  · have hplaced : (u.placedFor im parked pulse q).Fits im := fits_of_same placedFor_stacks hu
    refine fits_of_same rfl (count_fits (p := q.piece) (d := (u.routed im parked q).counted)
      (m := (u.routed im parked q).mixed) hplaced fun hm x hx hdischarging => ?_)
    rw [placedFor_stacks] at hdischarging ⊢
    exact destination_room ((compareRoute_counted hm).symm.trans hx) hdischarging
  · exact fits_of_same rfl (count_fits (p := q.piece) (d := u.lastRoute) (m := true) hu fun hm => by simp at hm)

end SortUnit

theorem SortAct.fits {im : Image} {u v : SortUnit} (h : SortAct im u v) (hu : u.Fits im) : v.Fits im := by
  cases h
  case decide => exact SortUnit.decide_fits hu
  case lostBatch => exact SortUnit.lostBatch_fits hu
  case close => exact SortUnit.close_fits _ hu
  case dischargeDone => exact SortUnit.dischargeDone_fits hu
  case leadingEdge =>
    refine SortUnit.fits_of_same ?_ hu
    unfold SortUnit.leadingEdge
    split <;> rfl
  case trailingEdge => exact SortUnit.fits_of_same rfl hu
  case parkBegin => exact SortUnit.fits_of_same rfl hu

/-! ### The fold arithmetic (R154, R155) -/

/-- Two blade firings stand at least the blade recovery apart. -/
def Apart (im : Image) (a b : Int) : Prop := a + (Image.bladeRecovery im : Int) ≤ b ∨ b + (Image.bladeRecovery im : Int) ≤ a

theorem Apart.symm {im : Image} {a b : Int} (h : Apart im a b) : Apart im b a := Or.symm h

theorem spacingStage_thirds {im : Image} {p : FoldProgram} {l : Nat} (h : (spacingStage im p l).1 = .thirds) :
    Image.bladeRecovery im ≤ 2 * l / 3 - l / 3 := by
  unfold spacingStage at h
  cases p with
  | none => simp at h
  | half => simp at h
  | thirds =>
    simp only [] at h
    split at h
    · simp at h
    · omega

theorem foldPoints_le {p : FoldProgram} {l f : Nat} (h : f ∈ foldPoints p l) : f ≤ l := by
  cases p <;> simp [foldPoints] at h <;> omega

theorem firings_eq (im : Image) (p : FoldProgram) (l n : Nat) : firings im p l n
    = (foldPoints p l).map fun f : Nat => (Image.bladeDistance im : Int) + f - l - Image.bladeLead im - n := by
  cases p <;> rfl

theorem firings_le {im : Image} {p : FoldProgram} {l n : Nat} {x : Int} (h : x ∈ firings im p l n) :
    x ≤ Image.bladeDistance im := by
  rw [firings_eq] at h
  obtain ⟨f, hf, rfl⟩ := List.mem_map.mp h
  have := foldPoints_le hf
  omega

/-- The firings of a program in force after the spacing stage stand apart (R154). -/
theorem firings_apart {im : Image} {p : FoldProgram} {l n : Nat} :
    (firings im (spacingStage im p l).1 l n).Pairwise (Apart im) := by
  cases hstage : (spacingStage im p l).1 with
  | none => exact .nil
  | half => exact List.pairwise_singleton _ _
  | thirds =>
    have hspace := spacingStage_thirds hstage
    rw [firings_eq]
    refine List.pairwise_cons.mpr ⟨fun y hy => .inl ?_, List.pairwise_singleton _ _⟩
    obtain rfl := List.mem_singleton.mp hy
    simp only []
    omega

theorem lastFiring_eq (l : List Action) : lastFiring l = (bladeCountdowns l).max? := rfl

/-- A clash with no firing of the list is a clash with none of them (R155). -/
theorem apart_of_no_clash {im : Image} {actions : List Action} {fs : List Int} (h : foldClash im actions fs = false)
    {x b : Int} (hx : x ∈ fs) (hb : b ∈ bladeCountdowns actions) : Apart im x b := by
  obtain ⟨a, ha⟩ : ∃ a, fs.min? = some a := Option.isSome_iff_exists.mp (List.isSome_min?_of_mem hx)
  obtain ⟨m, hm⟩ : ∃ m, lastFiring actions = some m := Option.isSome_iff_exists.mp (List.isSome_max?_of_mem hb)
  have hax := (List.min?_eq_some_iff.mp ha).2 x hx
  have hbm := (List.max?_eq_some_iff.mp hm).2 b hb
  unfold foldClash at h
  simp only [ha, hm, decide_eq_false_iff_not] at h
  right
  omega

/-- Firings that the fold arithmetic gives: in their range, apart from each other and from those of the list. -/
theorem foldArithmetic_firings {im : Image} {actions : List Action} {p : FoldProgram} {l n : Nat} {fs : List Int}
    (h : (foldArithmetic im actions p l n).firings = some fs) :
    (∀ x ∈ fs, 0 ≤ x ∧ x ≤ Image.bladeDistance im) ∧ fs.Pairwise (Apart im)
      ∧ ∀ x ∈ fs, ∀ b ∈ bladeCountdowns actions, Apart im x b := by
  unfold foldArithmetic at h
  simp only [] at h
  split at h
  · simp at h
  next hnegative =>
    split at h
    · simp at h
    next hclash =>
      obtain rfl : firings im (spacingStage im p l).1 l n = fs := by simpa using h
      simp only [List.any_eq_true, decide_eq_true_eq, not_exists, not_and, not_lt] at hnegative
      exact ⟨fun x hx => ⟨hnegative x hx, firings_le hx⟩, firings_apart,
        fun x hx b hb => apart_of_no_clash (by simpa using hclash) hx hb⟩

/-! ### The action list (R155, R158, R159) -/

/-- The blade firings of a list stand apart, and every action of it is still to come. -/
structure ActionsLaw (im : Image) (l : List Action) : Prop where
  apart : (bladeCountdowns l).Pairwise (Apart im)
  range : ∀ a ∈ l, 0 < a.countdown ∧ a.countdown ≤ 32767

theorem actionsLaw_nil (im : Image) : ActionsLaw im [] := ⟨.nil, by simp⟩

theorem bladeCountdowns_perm {l m : List Action} (h : l.Perm m) : (bladeCountdowns l).Perm (bladeCountdowns m) :=
  (h.filter _).map _

theorem bladeCountdowns_append (l m : List Action) :
    bladeCountdowns (l ++ m) = bladeCountdowns l ++ bladeCountdowns m := by
  simp [bladeCountdowns]

theorem ActionsLaw.perm {im : Image} {l m : List Action} (h : ActionsLaw im m) (hperm : l.Perm m) : ActionsLaw im l :=
  ⟨((bladeCountdowns_perm hperm).pairwise_iff Apart.symm).mpr h.apart, fun a ha => h.range a (hperm.mem_iff.mp ha)⟩

theorem ActionsLaw.append {im : Image} {l m : List Action} (hl : ActionsLaw im l) (hm : ActionsLaw im m)
    (h : ∀ x ∈ bladeCountdowns l, ∀ y ∈ bladeCountdowns m, Apart im x y) : ActionsLaw im (l ++ m) := by
  refine ⟨?_, fun a ha => (List.mem_append.mp ha).elim (hl.range a) (hm.range a)⟩
  rw [bladeCountdowns_append]
  exact List.pairwise_append.mpr ⟨hl.apart, hm.apart, h⟩

theorem ActionsLaw.filter {im : Image} {l : List Action} (f : Action → Bool) (h : ActionsLaw im l) :
    ActionsLaw im (l.filter f) :=
  ⟨h.apart.sublist ((List.filter_sublist.filter _).map _), fun a ha => h.range a (List.mem_of_mem_filter ha)⟩

theorem bladeCountdowns_map {f : Int → Int} (l : List Action) :
    bladeCountdowns (l.map fun a => { a with countdown := f a.countdown }) = (bladeCountdowns l).map f := by
  simp [bladeCountdowns, List.filter_map, Function.comp_def]

/-- A shift of every countdown by one amount keeps the firings apart. -/
theorem ActionsLaw.shift {im : Image} {l : List Action} (d : Int) (h : ActionsLaw im l)
    (hrange : ∀ a ∈ l, 0 < a.countdown + d ∧ a.countdown + d ≤ 32767) :
    ActionsLaw im (l.map fun a => { a with countdown := a.countdown + d }) := by
  refine ⟨?_, fun a ha => ?_⟩
  · rw [bladeCountdowns_map (f := (· + d)), List.pairwise_map]
    refine h.apart.imp fun {a b} hab => ?_
    unfold Apart at *
    omega
  · obtain ⟨x, hx, rfl⟩ := List.mem_map.mp ha
    exact hrange x hx

theorem bladeCountdowns_bladeActions (d : Dest) (fs : List Int) :
    bladeCountdowns (needPlaces (bladeActions d fs)) = if d = .runout then [] else fs.filter (· != 0) := by
  cases d with
  | runout => rfl
  | stacker x =>
    simp [bladeCountdowns, needPlaces, bladeActions, List.filter_map, Function.comp_def]

/-- The blade actions of firings that stand apart. -/
theorem bladeActions_law {im : Image} {d : Dest} {fs : List Int} (hrange : ∀ x ∈ fs, 0 ≤ x ∧ x ≤ 32767)
    (hapart : fs.Pairwise (Apart im)) : ActionsLaw im (needPlaces (bladeActions d fs)) := by
  refine ⟨?_, fun a ha => ?_⟩
  · rw [bladeCountdowns_bladeActions]
    split
    · exact .nil
    · exact hapart.sublist List.filter_sublist
  · cases d with
    | runout => simp [bladeActions, needPlaces] at ha
    | stacker x =>
      obtain ⟨ha, hne⟩ := List.mem_filter.mp ha
      obtain ⟨y, hy, rfl⟩ := List.mem_map.mp ha
      have := hrange y hy
      have hne : y ≠ 0 := by simpa using hne
      exact ⟨by show 0 < y; omega, this.2⟩

theorem mem_bladeActions {d : Dest} {fs : List Int} {x : Int}
    (h : x ∈ bladeCountdowns (needPlaces (bladeActions d fs))) : x ∈ fs := by
  rw [bladeCountdowns_bladeActions] at h
  split at h
  · simp at h
  · exact List.mem_of_mem_filter h

/-- A SET ROUTE of a decision is a distance within the diverter distance (R157). -/
theorem compareRoute_setRoute {im : Image} {parked : Bool} {last d : Dest} {g l n : Nat} {a : Action}
    (h : a ∈ (compareRoute im parked last d g l n).setRoute) :
    (∃ code, a.kind = .setRoute code) ∧ 0 ≤ a.countdown ∧ a.countdown ≤ Image.diverter im := by
  unfold compareRoute at h
  split_ifs at h
  all_goals simp only [List.not_mem_nil, List.mem_singleton] at h
  subst h
  exact ⟨⟨_, rfl⟩, by simp, by simp; omega⟩

theorem setRoute_law {im : Image} {l : List Action}
    (h : ∀ a ∈ l, (∃ code, a.kind = .setRoute code) ∧ 0 ≤ a.countdown ∧ a.countdown ≤ 32767) :
    ActionsLaw im (needPlaces l) ∧ bladeCountdowns (needPlaces l) = [] := by
  have hnone : bladeCountdowns (needPlaces l) = [] := by
    rw [bladeCountdowns, List.map_eq_nil_iff, List.filter_eq_nil_iff]
    intro a ha
    obtain ⟨⟨code, hcode⟩, -⟩ := h a (List.mem_of_mem_filter ha)
    simp [hcode]
  refine ⟨⟨by rw [hnone]; exact .nil, fun a ha => ?_⟩, hnone⟩
  obtain ⟨ha, hne⟩ := List.mem_filter.mp ha
  obtain ⟨-, hpos, hle⟩ := h a ha
  have hne : a.countdown ≠ 0 := by simpa using hne
  exact ⟨by omega, hle⟩

/-- The sort distances of a valid image are 16-bit distances. -/
theorem Image.sortDistances_of_valid {im : Image} (h : Image.firstFailure im = none) :
    Image.bladeDistance im ≤ 8191 ∧ Image.diverter im ≤ 8191 := by
  have hblade := Image.check_of_valid h (x := Image.checkWord im 0x0FA 0 8191) (by simp [Image.fieldChecks])
  have hdiverter := Image.check_of_valid h (x := Image.checkWord im 0x100 0 8191) (by simp [Image.fieldChecks])
  simp only [Image.checkWord, Bool.and_eq_true, decide_eq_true_eq] at hblade hdiverter
  exact ⟨hblade.2, hdiverter.2⟩

/-- The firings of a destination come from the fold arithmetic, where there are any (R156). -/
theorem SortUnit.destination_firings (u : SortUnit) (im : Image) (parked : Bool) (q : SortPiece) :
    (u.destination im parked q).firings = []
      ∨ (foldArithmetic im u.actions (q.program im) q.length q.lateness).firings
          = some (u.destination im parked q).firings := by
  unfold SortUnit.destination
  split
  · exact .inl rfl
  · simp only []
    split
    · exact .inl rfl
    · exact .inl rfl
    next x hfirings _ =>
      right
      rw [hfirings]
      unfold stage6
      simp only []
      split_ifs <;> rfl

theorem SortUnit.decide_actions {u : SortUnit} {im : Image} {parked : Bool} {pulse : Timer} {q : SortPiece}
    (hvalid : Image.firstFailure im = none) (hu : ActionsLaw im u.actions) :
    ActionsLaw im (u.decide im parked pulse q).1.actions := by
  obtain ⟨hblade, hdiverter⟩ := Image.sortDistances_of_valid hvalid
  rw [SortUnit.decide_unit]
  split
  next =>
    show ActionsLaw im (SortUnit.count _ _ _ _ _).1.actions
    rw [(SortUnit.count_rest _ _ _ _ _).1]
    refine ActionsLaw.perm ?_ (SortUnit.place_spec pulse (u.newActions im parked q) _).2
    have hfirings : (∀ x ∈ (u.destination im parked q).firings, 0 ≤ x ∧ x ≤ Image.bladeDistance im)
        ∧ (u.destination im parked q).firings.Pairwise (Apart im)
        ∧ ∀ x ∈ (u.destination im parked q).firings, ∀ b ∈ bladeCountdowns u.actions, Apart im x b := by
      rcases u.destination_firings im parked q with h | h
      · rw [h]
        simp
      · exact foldArithmetic_firings h
    obtain ⟨hrange, hapart, hold⟩ := hfirings
    obtain ⟨hroute, hnone⟩ := setRoute_law (im := im) (l := (u.routed im parked q).setRoute) fun a ha => by
      obtain ⟨hcode, hpos, hle⟩ := compareRoute_setRoute ha
      exact ⟨hcode, hpos, by omega⟩
    have hfolds : ActionsLaw im (needPlaces (bladeActions (u.routed im parked q).counted (u.destination im parked q).firings)) :=
      bladeActions_law (fun x hx => ⟨(hrange x hx).1, by have := (hrange x hx).2; omega⟩) hapart
    have hnew : needPlaces (u.newActions im parked q) = needPlaces (u.routed im parked q).setRoute
        ++ needPlaces (bladeActions (u.routed im parked q).counted (u.destination im parked q).firings) :=
      List.filter_append _ _
    rw [hnew]
    refine hu.append (hroute.append hfolds fun x hx => by simp [hnone] at hx) fun x hx y hy => ?_
    rw [bladeCountdowns_append, hnone, List.nil_append] at hy
    exact (hold y (mem_bladeActions hy) x hx).symm
  next =>
    show ActionsLaw im (SortUnit.count _ _ _ _ _).1.actions
    rwa [(SortUnit.count_rest _ _ _ _ _).1]

theorem SortUnit.lostBatch_actions (u : SortUnit) (im : Image) (p : Piece) : (u.lostBatch im p).1.actions = u.actions := by
  unfold SortUnit.lostBatch
  split
  · rfl
  · simp only []
    split_ifs <;> simp [SortUnit.close_rest]

theorem SortUnit.dischargeDone_actions (u : SortUnit) (im : Image) (x : StackerNo) :
    (u.dischargeDone im x).1.actions = u.actions := by
  unfold SortUnit.dischargeDone
  simp only []
  split_ifs <;> simp [SortUnit.close_rest]

theorem SortAct.actions {im : Image} {u v : SortUnit} (h : SortAct im u v) (hvalid : Image.firstFailure im = none)
    (hu : ActionsLaw im u.actions) : ActionsLaw im v.actions := by
  cases h
  case decide => exact SortUnit.decide_actions hvalid hu
  case lostBatch => rwa [SortUnit.lostBatch_actions]
  case close => rwa [(SortUnit.close_rest _ _ _).1]
  case dischargeDone => rwa [SortUnit.dischargeDone_actions]
  case leadingEdge =>
    unfold SortUnit.leadingEdge
    split <;> exact hu
  case trailingEdge => exact hu
  case parkBegin => exact actionsLaw_nil im

/-! ### A travel advance (R159) -/

theorem le_greatest (l : List Action) (m : Int) :
    m ≤ l.foldl (fun m a => max m a.countdown) m
      ∧ ∀ a ∈ l, a.countdown ≤ l.foldl (fun m a => max m a.countdown) m := by
  induction l generalizing m with
  | nil => simp
  | cons x l ih =>
    obtain ⟨hfirst, hrest⟩ := ih (max m x.countdown)
    simp only [List.foldl_cons, List.mem_cons, forall_eq_or_imp]
    exact ⟨by omega, by omega, hrest⟩

theorem greatest_le (l : List Action) (m b : Int) (hm : m ≤ b) (hl : ∀ a ∈ l, a.countdown ≤ b) :
    l.foldl (fun m a => max m a.countdown) m ≤ b := by
  induction l generalizing m with
  | nil => exact hm
  | cons x l ih =>
    rw [List.forall_mem_cons] at hl
    exact ih _ (max_le hm hl.1) hl.2

/-- The actions that forward travel leaves: those still to come, nearer by d (R159). -/
theorem forward_actions (l : List Action) (d : Int) :
    ((l.map fun a => { a with countdown := max (-32768) (a.countdown - d) }).filter fun a => Decidable.decide (0 < a.countdown))
      = (l.filter fun a => Decidable.decide (d < a.countdown)).map fun a => { a with countdown := a.countdown + -d } := by
  rw [List.filter_map]
  have hfilter : (l.filter ((fun a : Action => Decidable.decide (0 < a.countdown))
      ∘ fun a => { a with countdown := max (-32768) (a.countdown - d) })) = l.filter fun a => Decidable.decide (d < a.countdown) := by
    refine List.filter_congr fun a _ => ?_
    simp only [Function.comp, decide_eq_decide]
    omega
  rw [hfilter]
  refine List.map_congr_left fun a ha => ?_
  have hlt : d < a.countdown := by simpa using List.of_mem_filter ha
  congr 1
  omega

theorem SortUnit.advance_actions {u : SortUnit} {im : Image} (pulse : Timer) (d : Int) (hu : ActionsLaw im u.actions) :
    ActionsLaw im (u.advance pulse d).actions := by
  unfold SortUnit.advance
  split
  next hpos =>
    rw [SortUnit.performDue_actions]
    simp only [SortUnit.move, hpos, if_true]
    rw [forward_actions]
    refine (hu.filter _).shift (-d) fun a ha => ?_
    have hlt : d < a.countdown := by simpa using List.of_mem_filter ha
    have := (hu.range a (List.mem_of_mem_filter ha)).2
    omega
  next hneg =>
    simp only [SortUnit.move, hneg, if_false]
    refine hu.shift _ fun a ha => ?_
    obtain ⟨-, hgreatest⟩ := le_greatest u.actions (-32768)
    have hle := greatest_le u.actions (-32768) 32767 (by omega) fun a ha => (hu.range a ha).2
    have hrange := hu.range a ha
    have hg := hgreatest a ha
    omega

/-! ### The laws of the sort unit, act by act -/

theorem SortUnit.advance_stackers (u : SortUnit) (pulse : Timer) (d : Int) : (u.advance pulse d).stackers = u.stackers := by
  unfold SortUnit.advance
  split
  · exact (SortUnit.performAll_stacks _ _ _).1.stackers
  · rfl

/-- The sort unit's laws, of a station on the line or off it. -/
structure SortUnit.Lawful (u : SortUnit) (im : Image) (line : Bool) : Prop where
  fits : u.Fits im
  rest : line = false → u.stackers = .all .cleared
  length : u.actions.length ≤ 16
  actions : ActionsLaw im u.actions
  idle : line = false → u.actions = []

theorem sortLaws_iff : (StackerLaw s ∧ ActionLaw s) ↔ s.sort.Lawful s.image s.onLine := by
  constructor
  · rintro ⟨⟨h1, h2⟩, h3, h4, h5, h6⟩
    exact ⟨fun c => ⟨(h1 c).1, (h1 c).2⟩, h2, h3, ⟨h4, h5⟩, h6⟩
  · rintro ⟨h1, h2, h3, ⟨h4, h5⟩, h6⟩
    exact ⟨⟨fun c => ⟨(h1 c).collecting, (h1 c).discharging⟩, h2⟩, h3, h4, h5, h6⟩

theorem SortUnit.cleared_lawful (n : Nat) (l : List Tally) (im : Image) (line : Bool) :
    (SortUnit.cleared n l).Lawful im line :=
  ⟨fun x => by simp only [SortUnit.cleared, Quad.get_all]; exact Stacker.fits_cleared im, fun _ => rfl, Nat.zero_le _,
    actionsLaw_nil im, fun _ => rfl⟩

theorem SortAct.actions_length {im : Image} {u v : SortUnit} (h : SortAct im u v) (hu : u.actions.length ≤ 16) :
    v.actions.length ≤ 16 := by
  cases h
  case decide parked pulse q =>
    rw [SortUnit.decide_unit]
    split
    next hroom =>
      show (SortUnit.count _ _ _ _ _).1.actions.length ≤ 16
      rw [(SortUnit.count_rest _ _ _ _ _).1, SortUnit.placedFor, (SortUnit.place_spec _ _ _).2.length_eq, List.length_append]
      exact SortUnit.hasRoom_iff.mp hroom
    next =>
      show (SortUnit.count _ _ _ _ _).1.actions.length ≤ 16
      rwa [(SortUnit.count_rest _ _ _ _ _).1]
  case lostBatch => rwa [SortUnit.lostBatch_actions]
  case close => rwa [(SortUnit.close_rest _ _ _).1]
  case dischargeDone => rwa [SortUnit.dischargeDone_actions]
  case leadingEdge =>
    unfold SortUnit.leadingEdge
    split <;> exact hu
  case trailingEdge => exact hu
  case parkBegin => exact Nat.zero_le _

theorem SortUnit.Lawful.same {u v : SortUnit} {im : Image} {line : Bool} (h : u.Lawful im line)
    (hstackers : v.stackers = u.stackers) (hactions : v.actions = u.actions) : v.Lawful im line :=
  ⟨SortUnit.fits_of_same hstackers h.fits, fun hl => hstackers.trans (h.rest hl), by rw [hactions]; exact h.length,
    by rw [hactions]; exact h.actions, fun hl => hactions.trans (h.idle hl)⟩

theorem SortUnit.Lawful.advanced {u : SortUnit} {im : Image} {line : Bool} (pulse : Timer) (d : Int)
    (h : u.Lawful im line) : (u.advance pulse d).Lawful im line := by
  have hlength : (u.advance pulse d).actions.length ≤ u.actions.length := by
    unfold SortUnit.advance
    split
    · rw [SortUnit.performDue_actions]
      refine (List.length_filter_le _ _).trans ?_
      simp only [SortUnit.move]
      split <;> simp
    · simp only [SortUnit.move]
      split <;> simp
  refine ⟨SortUnit.fits_of_same (u.advance_stackers pulse d) h.fits, fun hl => (u.advance_stackers pulse d).trans (h.rest hl),
    hlength.trans h.length, SortUnit.advance_actions pulse d h.actions, fun hl => ?_⟩
  rw [h.idle hl] at hlength
  exact List.length_eq_zero_iff.mp (Nat.le_zero.mp hlength)

theorem Act.sort_lawful (h : Act c s t) (hstanding : Standing s)
    (hs : s.sort.Lawful s.image s.onLine) : t.sort.Lawful s.image s.onLine := by
  rcases h.sort_cases with e | ⟨hline, h⟩ | e | ⟨n, e⟩ | ⟨d, e⟩ | e | e
  · rwa [e]
  · rw [hline] at hs ⊢
    have hvalid := (hstanding.of_onLine hline).2.2.2
    exact ⟨h.fits hs.fits, fun h => by simp at h, h.actions_length hs.length, h.actions hvalid hs.actions,
      fun h => by simp at h⟩
  · exact hs.same (by rw [e]) (by rw [e])
  · exact hs.same (by rw [e]) (by rw [e])
  · rw [e]
    exact hs.advanced _ d
  · rw [e]
    exact SortUnit.cleared_lawful _ _ _ _
  · rw [e]
    exact SortUnit.cleared_lawful _ _ _ _

/-- A sort unit at rest meets its laws whatever the image. -/
theorem SortUnit.Lawful.of_rest {u : SortUnit} {im im' : Image} (h : u.Lawful im false) (line : Bool) :
    u.Lawful im' line :=
  ⟨fun x => by rw [h.rest rfl, Quad.get_all]; exact Stacker.fits_cleared im', fun _ => h.rest rfl, h.length,
    by rw [h.idle rfl]; exact actionsLaw_nil im', fun _ => h.idle rfl⟩

theorem Move.sort_lawful (h : Move c s t) (hstanding : Standing s) (hs : s.sort.Lawful s.image s.onLine) :
    t.sort.Lawful t.image t.onLine := by
  have hunfrozen (h : s.spi.frozen = false) : s.onLine = false := by
    rcases (hstanding.of_not_frozen h).1 with h | h <;> simp [State.onLine, h]
  cases h
  case endDeparture => exact hs
  case join hstate _ =>
    have hoff : s.onLine = false := by simp [State.onLine, hstate]
    rw [hoff] at hs
    exact hs.of_rest _
  case leave =>
    rw [State.departed_sort]
    exact SortUnit.cleared_lawful _ _ _ _
  case lockOut => exact SortUnit.cleared_lawful _ _ _ _
  case settle hstate =>
    have hline : s.onLine = true := State.onLine_iff.mpr (.inl hstate)
    rw [hline] at hs
    exact hs
  case writeImage hfrozen _ _ =>
    rw [hunfrozen hfrozen] at hs
    exact hs.of_rest _
  case validate hfrozen _ _ =>
    rw [hunfrozen hfrozen] at hs
    exact hs.of_rest _
  case reset => exact SortUnit.cleared_lawful _ _ _ _

theorem Act.sortLaws (h : Act c s t) (hstanding : Standing s) (hs : StackerLaw s ∧ ActionLaw s) :
    StackerLaw t ∧ ActionLaw t := by
  rw [sortLaws_iff] at *
  by_cases hmove : Move c s t
  · exact hmove.sort_lawful hstanding hs
  · have hsame := h.sameStanding_or_move.resolve_right hmove
    have himage : t.image = s.image := hsame.image
    rw [hsame.onLine, himage]
    exact h.sort_lawful hstanding hs

/-- Settles O56: every act on the sort unit keeps the stackers' law and the action list's. -/
theorem sortLawsKept : Obligations.SortLawsKept := fun _ _ hstanding hstackers hactions h =>
  (step_keeps (P := fun u => Standing u ∧ StackerLaw u ∧ ActionLaw u) (fun _ _ h => h) (fun _ _ h => h)
    (fun _ _ _ hact h => ⟨hact.standing h.1, hact.sortLaws h.1 h.2⟩) ⟨hstanding, hstackers, hactions⟩ h).2

end Sys2Proof.Machine
end

section
/-! PROOFS. The step, hard reset, the decoder and the encoder-loss timer. -/

namespace Sys2Proof.Machine

open Sys2Proof

/-- Settles O1: the two cases of the step. -/
theorem stepTakesFront : Obligations.StepTakesFront := by
  refine ⟨fun c rest s h => ?_, fun s h => ?_⟩
  · rw [step, h]
  · unfold step
    split
    next => rfl
    next hp => simp [h] at hp

/-- Settles O2: the values of `State.afterReset`, block by block. -/
theorem hardResetValues : Obligations.HardResetValues := by
  intro pins s
  refine ⟨_, rfl, rfl, rfl, fun k => ?eyes, rfl, rfl, rfl, fun k => Quad.get_all k none, rfl, rfl, rfl, rfl, rfl, rfl, rfl,
    rfl, rfl, fun x => Quad.get_all x _, rfl, rfl, fun k => ?counts, rfl, rfl, rfl, fun k => ?policy, rfl, rfl, ?clamp, rfl,
    rfl, rfl, fun x => ?discharge, rfl, rfl⟩
  case eyes => fin_cases k <;> rfl
  case counts => simp [State.afterReset]
  case policy => cases k <;> rfl
  case clamp => rfl
  case discharge => fin_cases x <;> rfl

/-- Settles O3: every block is at its cleared values after hard reset, and those meet each law. -/
theorem resetMeetsLaws : Obligations.ResetMeetsLaws := by
  refine ⟨rfl, fun pins => ?_⟩
  have hoff : (State.afterReset pins).onLine = false := rfl
  have hsort := sortLaws_iff (s := State.afterReset pins) |>.mpr (SortUnit.cleared_lawful 0 [] (State.afterReset pins).image (State.afterReset pins).onLine)
  refine ⟨?standing, ?halt, ?port, ?hole, ?capacities, hsort.1, hsort.2, ?list, ?rest⟩
  case standing =>
    exact standing_of_not_frozen List.length_replicate rfl (.inl rfl) (fun h => by simp [State.afterReset] at h) rfl rfl
      (fun h => by simp [State.afterReset] at h)
  case halt => exact haltLaw_iff.mpr (StationControl.halts_of_empty rfl rfl rfl (fun _ _ => rfl) fun h => absurd rfl h)
  case port => exact portLaw_iff.mpr (LinePort.inactive_lawful (by rw [hoff]; simp [State.afterReset]))
  case hole => exact ⟨Nat.zero_le _, rfl, Nat.zero_le _, fun h => absurd (hoff.symm.trans h) (by simp), fun _ => rfl⟩
  case capacities =>
    refine ⟨Nat.zero_le _, Nat.zero_le _, Nat.zero_le _, Nat.zero_le _, Nat.zero_le _, Nat.zero_le _, Nat.zero_le _, le_rfl,
      fun k => by simp [State.afterReset], fun k => ?_⟩
    fin_cases k <;> exact Nat.zero_le _
  case list => exact ⟨Nat.zero_le _, .nil, .nil, fun e he => by simp [State.afterReset, Tracker.cleared] at he⟩
  case rest => exact fun _ => ⟨rfl, rfl, rfl, rfl, rfl, rfl, rfl⟩

/-! ### The quadrature decoder (R1) -/

theorem classify_forward_iff {p q a b : Bool} : classify p q a b = .forward ↔ quarter a b = quarter p q + 1 := by
  revert p q a b
  decide

theorem classify_reverse_iff {p q a b : Bool} : classify p q a b = .reverse ↔ quarter a b = quarter p q + 3 := by
  revert p q a b
  decide

theorem classify_double_iff {p q a b : Bool} : classify p q a b = .double ↔ quarter a b = quarter p q + 2 := by
  revert p q a b
  decide

theorem classify_same_iff {p q a b : Bool} : classify p q a b = .same ↔ a = p ∧ b = q := by
  revert p q a b
  decide

variable {s : State}

/-- The state with the phase pair held (R1). -/
def State.paired (s : State) (a b : Bool) : State := { s with travel := { s.travel with phaseA := a, phaseB := b } }

/-- The state with the phase pair held and its count taken (R1, R2). -/
def State.counted (s : State) (a b forward : Bool) : State :=
  { s.paired a b with travel := { (s.paired a b).travel with
      count := if forward then s.travel.count + 1 else s.travel.count - 1 } }

theorem execDecoderEvent_double {a b : Bool} (h : quarter a b = quarter s.travel.phaseA s.travel.phaseB + 2) :
    execDecoderEvent a b s = .next (s.paired a b) := by
  rw [execDecoderEvent, classify_double_iff.mpr h]
  rfl

theorem execDecoderEvent_count {a b forward : Bool}
    (h : quarter a b = quarter s.travel.phaseA s.travel.phaseB + (if forward then 1 else 3)) :
    execDecoderEvent a b s = .next ((s.paired a b).takeCount forward) := by
  cases forward with
  | true =>
    rw [execDecoderEvent, classify_forward_iff.mpr h]
    rfl
  | false =>
    rw [execDecoderEvent, classify_reverse_iff.mpr h]
    rfl

theorem execDecoderEvent_off (a b : Bool) (hoff : s.onLine = false) :
    execDecoderEvent a b s = .next { s with
       travel := { s.travel with
         phaseA := a, phaseB := b
         count := if quarter a b = quarter s.travel.phaseA s.travel.phaseB + 1 then s.travel.count + 1
           else if quarter a b + 1 = quarter s.travel.phaseA s.travel.phaseB then s.travel.count - 1
           else s.travel.count } } := by
  have hcount (forward : Bool) : (s.paired a b).takeCount forward = { s with travel := { s.travel with
      phaseA := a, phaseB := b, count := if forward then s.travel.count + 1 else s.travel.count - 1 } } := by
    unfold State.takeCount
    simp only []
    rw [if_neg]
    · rfl
    · simpa [State.onLine, State.paired] using hoff
  have hback : quarter a b + 1 = quarter s.travel.phaseA s.travel.phaseB
      ↔ quarter a b = quarter s.travel.phaseA s.travel.phaseB + 3 := by
    generalize quarter a b = x
    generalize quarter s.travel.phaseA s.travel.phaseB = y
    revert x y
    decide
  cases hc : classify s.travel.phaseA s.travel.phaseB a b with
  | same =>
    obtain ⟨rfl, rfl⟩ := classify_same_iff.mp hc
    have hne : ∀ x : Fin 4, x ≠ x + 1 ∧ x + 1 ≠ x := by decide
    rw [execDecoderEvent, hc, if_neg (hne _).1, if_neg (hne _).2]
  | double =>
    have h := classify_double_iff.mp hc
    have hne : ∀ x : Fin 4, x + 2 ≠ x + 1 ∧ x + 2 ≠ x + 3 := by decide
    rw [execDecoderEvent_double h, if_neg (h ▸ (hne _).1), if_neg fun he => (hne _).2 (h.symm.trans (hback.mp he))]
    rfl
  | forward =>
    have h := classify_forward_iff.mp hc
    rw [execDecoderEvent_count (forward := true) h, hcount, if_pos h]
    rfl
  | reverse =>
    have h := classify_reverse_iff.mp hc
    have hne : ∀ x : Fin 4, x + 3 ≠ x + 1 := by decide
    have hnot : ¬ quarter a b = quarter s.travel.phaseA s.travel.phaseB + 1 := h ▸ hne _
    rw [execDecoderEvent_count (forward := false) h, hcount, if_neg hnot, if_pos (hback.mpr h)]
    rfl

theorem State.restartLoss_eq (s : State) : s.restartLoss = s.lossTimerFull := by
  rw [State.restartLoss, State.lossTimerFull, State.startTimer, Image.lossMs, Nat.mul_comm]

theorem State.encoderReturns_eq (hlost : s.travel.lost = true) :
    s.encoderReturns =
      if { s with travel := { s.travel with lost := false } }.parked then { s with travel := { s.travel with lost := false } }
      else { s with travel := { s.travel with lost := false } }.evalDrop := by
  have hparked : s.parked = true := by simp [State.parked, State.parkCause, hlost]
  rw [State.encoderReturns,
    reviewDrop_of_same_halt_map (before := s) (s := { s with travel := { s.travel with lost := false } }) rfl rfl]
  cases h : State.parked { s with travel := { s.travel with lost := false } } <;> simp [hparked]

theorem State.countOnLine_of_lost (forward : Bool) (h : s.travel.lost = true) :
    s.countOnLine forward = if (s.encoderReturns.accumulate forward).travel.beltRun
      then (s.encoderReturns.accumulate forward).lossTimerFull else s.encoderReturns.accumulate forward := by
  rw [State.countOnLine, if_pos h, ← State.restartLoss_eq]

theorem Timer.isRunning_eq_false_iff {t : Timer} : t.isRunning = false ↔ t = .stopped := by
  cases t <;> simp [Timer.isRunning]

theorem State.countOnLine_of_not_lost (forward : Bool) (h : s.travel.lost = false) :
    s.countOnLine forward = if (s.accumulate forward).travel.lossTimer = .stopped
      then s.accumulate forward else (s.accumulate forward).lossTimerFull := by
  rw [State.countOnLine, if_neg (by simp [h]), ← State.restartLoss_eq]
  by_cases ht : (s.accumulate forward).travel.lossTimer = .stopped
  · rw [if_pos ht]
    exact if_neg (by rw [ht]; simp [Timer.isRunning])
  · rw [if_neg ht]
    exact if_pos (Timer.isRunning_iff.mpr ht)

theorem State.accumulate_eq (s : State) (forward : Bool) :
    s.accumulate forward = State.moved
      { s with travel := { s.travel with fraction := ((if forward then (s.travel.fraction : Int) + Image.step s.image
          else (s.travel.fraction : Int) - Image.step s.image) % 256).toNat } }
      ((if forward then (s.travel.fraction : Int) + Image.step s.image
          else (s.travel.fraction : Int) - Image.step s.image) / 256) := rfl

/-- Settles O4: each change of the phase pair, and a count through the accumulator. -/
theorem decoderEvents : Obligations.DecoderEvents := by
  refine ⟨fun s a b hoff => execDecoderEvent_off a b hoff, fun s a b hline => ⟨fun h => execDecoderEvent_double h, ?_⟩⟩
  intro forward h
  have hcount : exec (.decoderEvent a b) s = .next ((s.counted a b forward).countOnLine forward) :=
    (execDecoderEvent_count h).trans (congrArg Host.Outcome.next (if_pos hline))
  refine ⟨fun hlost => hcount.trans (congrArg Host.Outcome.next ?_), fun hlost => hcount.trans (congrArg Host.Outcome.next ?_)⟩
  · have hlost : (s.counted a b forward).travel.lost = false := hlost
    rw [State.countOnLine_of_not_lost forward hlost, State.accumulate_eq]
    rfl
  · have hlost : (s.counted a b forward).travel.lost = true := hlost
    rw [State.countOnLine_of_lost forward hlost, State.encoderReturns_eq hlost, State.accumulate_eq]
    rfl

/-! ### Belt-run and encoder loss (R8, R9) -/

theorem followParkBegin_of {before after : State} (hparked : after.parked = true) :
    followParkBegin before after = { after with
      sort := if before.parked = false ∧ after.role = some .sort then after.sort.parkBegin else after.sort } := by
  rw [followParkBegin]
  by_cases h : before.parked = false ∧ after.role = some .sort
  · obtain ⟨hbefore, hrole⟩ := h
    rw [if_pos (by rw [hbefore, hparked, hrole]; rfl), if_pos ⟨hbefore, hrole⟩]
  · rw [if_neg h]
    exact if_neg (by simpa [hparked] using h)

/-- Settles O5: the belt-run input's changes and the loss timer's expiry. -/
theorem beltRunAndEncoderLoss : Obligations.BeltRunAndEncoderLoss := by
  intro s
  refine ⟨fun active => ?belt, fun h => ?stopped, fun n start h => ?expiry⟩
  case belt =>
    simp only [exec, execBeltRunInputChange]
    by_cases hsame : s.travel.beltRun = active
    · rw [if_pos hsame, if_pos hsame.symm]
    · rw [if_neg hsame, if_neg (Ne.symm hsame)]
      cases active with
      | false => rfl
      | true =>
        by_cases hon : s.onLine = true ∧ s.travel.lost = false
        · rw [if_pos rfl, if_pos (by simpa [State.onLine] using hon)]
          simp [State.restartLoss_eq, State.lossTimerFull, hon]
        · rw [if_pos rfl, if_neg (by simpa [State.onLine] using hon)]
          simp [hon]
  case stopped => simp [exec, execEncoderLossTimerExpiry, h, Timer.isRunning]
  case expiry =>
    have hrun : s.travel.lossTimer.isRunning = true := by rw [h]; rfl
    simp only [exec, execEncoderLossTimerExpiry, hrun, if_true]
    rw [State.encoderLost, followParkBegin_of (by simp [State.parked, State.parkCause]), h]
    rfl

end Sys2Proof.Machine
end

section
/-! PROOFS. The inputs, the timers' ends, JOIN, the own halt's commands and the start of a send attempt. -/

namespace Sys2Proof.Machine

open Sys2Proof

variable {s : State}

/-! ### The spreader and the batch-close input (R124, R25) -/

theorem Image.profile_zero (im : Image) : Image.profile im 0 = Image.profileZero im := by
  simp [Image.profile, Image.profileUsed]

theorem Image.feedMask_zero (im : Image) : Image.feedMask im 0 = Image.lanes im := by
  rw [Image.feedMask, Image.profile_zero]
  rfl

theorem execSpreaderReadyRising_of_not_presenting (hlow : s.feed.spreader = false)
    (h : s.role ≠ some .feed ∨ s.running = false ∨ s.feed.handshake ≠ .waiting) :
    execSpreaderReadyRising s = .next { s with feed := { s.feed with spreader := true } } := by
  rw [execSpreaderReadyRising, if_neg (by simp [hlow])]
  refine if_neg fun ⟨hrole, hrunning, hwaiting⟩ => ?_
  rcases h with h | h | h
  · exact h hrole
  · exact absurd (hrunning.symm.trans h) (by simp)
  · exact h hwaiting

theorem execSpreaderReadyRising_of_presenting (hlow : s.feed.spreader = false) (hrole : s.role = some .feed)
    (hrunning : s.running = true) (hwaiting : s.feed.handshake = .waiting) :
    execSpreaderReadyRising s = .next (State.presentHead { s with feed := { s.feed with spreader := true } }) := by
  rw [execSpreaderReadyRising, if_neg (by simp [hlow])]
  exact if_pos ⟨hrole, hrunning, hwaiting⟩

/-- Settles O13: each case of the spreader's edges, and the batch-close latch. -/
theorem spreaderAndBatchInputs : Obligations.SpreaderAndBatchInputs := by
  intro s
  refine ⟨fun h => ?_, execSpreaderReadyRising_of_not_presenting, fun hlow hrole hrunning hwaiting hqueue => ?record,
    fun hlow hrole hrunning hwaiting hqueue => ?empty, fun h => ?_, fun h => ?falling, ?batch⟩
  · exact if_pos h
  case record =>
    refine (execSpreaderReadyRising_of_presenting hlow hrole hrunning hwaiting).trans ?_
    have hsome : ¬ s.feed.queue.isEmpty = true := by simpa using hqueue
    exact congrArg (fun u : State => Host.Outcome.next
      (State.evalDrop { u with feed := { u.feed with ready := true, handshake := .ready } })) (if_neg hsome)
  case empty =>
    refine (execSpreaderReadyRising_of_presenting hlow hrole hrunning hwaiting).trans ?_
    have hnone : s.feed.queue.isEmpty = true := by simpa using hqueue
    refine congrArg (fun u : State => Host.Outcome.next
      (State.evalDrop { u with feed := { u.feed with ready := true, handshake := .ready } })) ((if_pos hnone).trans ?_)
    rw [State.createRecord_eq]
    simp only [hqueue, List.nil_append, Image.feedMask_zero, Image.profile_zero]
    rfl
  · simp [exec, execSpreaderReadyFalling, h]
  case falling =>
    simp only [exec, execSpreaderReadyFalling, if_pos h]
    cases hshake : s.feed.handshake <;> simp
  case batch =>
    simp only [exec, execBatchCloseInputActive]
    by_cases h : s.onLine = true ∧ s.role = some .feed
    · rw [if_pos h, if_pos (State.onLineAs_iff.mpr h)]
    · rw [if_neg h, if_neg (mt State.onLineAs_iff.mp h)]

/-! ### The ends of the timers (R13, R14, R38, R125) -/

theorem Timer.isRunning_running (n start : Nat) : (Timer.running n start).isRunning = true := rfl

theorem Timer.isRunning_stopped : Timer.stopped.isRunning = false := rfl

/-- Settles O14: each expiry, of a stopped timer and of a running one. -/
theorem timerExpiries : Obligations.TimerExpiries := by
  intro s
  refine ⟨fun h => ?_, fun h => ?_, fun h => ?_, fun h => ?_, fun n start => ⟨fun h => ?_, fun h => ?_, fun h => ?_, fun h => ?_⟩⟩
  · simp [exec, execOffLineTimerExpiry, h, Timer.isRunning_stopped]
  · simp [exec, execReleasePulseExpiry, h, Timer.isRunning_stopped]
  · simp [exec, execSpreaderStuckTimerExpiry, h, Timer.isRunning_stopped]
  · simp [exec, execBladePulseExpiry, h, Timer.isRunning_stopped]
  · simp only [exec, execOffLineTimerExpiry, h, Timer.isRunning_running, if_true]
    rfl
  · simp only [exec, execReleasePulseExpiry, h, Timer.isRunning_running, if_true, State.startTimer, Image.spreaderStuckMs,
      Nat.mul_comm (Image.byte _ 0x01F)]
    rfl
  · simp only [exec, execSpreaderStuckTimerExpiry, h, Timer.isRunning_running, if_true]
    rfl
  · simp only [exec, execBladePulseExpiry, h, Timer.isRunning_running, if_true]
    rfl

/-! ### Parking and the settle timer (R54, R61) -/

/-- Nothing drops while the halt set has a member (R133). -/
theorem State.evalDrop_of_halted (h : s.control.haltSet ≠ 0) : s.evalDrop = s := by
  have hno : s.noHalt = false := by simpa [State.noHalt] using h
  have htest (p : Piece) : s.dropTest p = false := by simp [State.dropTest, State.lineAllows, hno]
  unfold State.evalDrop
  split
  · split
    · rfl
    · rw [htest]
      rfl
  · rfl

theorem withHalt_eq (c : StationControl) (a r : Nat) (tag : Option Tag) : c.addHalt a r tag = withHalt c a r tag := rfl

theorem withoutHalt_eq (c : StationControl) (a : Nat) : c.removeHalt a = withoutHalt c a := rfl

/-- A frame of no age added to an active port's queue with room brings nothing else (R40). -/
theorem State.addQuiet_of_room {n : Notice} (hactive : s.port.active = true) (hroom : s.port.queue.length < 8) :
    s.addQuiet n 0 = s.queued n := by
  simp [State.addQuiet, State.put, hactive, putFrame, Config.queueCapacity, hroom, State.queued]

theorem State.add_eq_queued {n : Notice} (hactive : s.port.active = true) (hroom : s.port.queue.length < 8) :
    s.add n 0 = s.queued n := State.add_of_room hactive hroom n 0

theorem State.haltSet_of_withHalt_ne_zero (c : StationControl) {a r : Nat} {tag : Option Tag} (ha : isAddress a) :
    (withHalt c a r tag).haltSet ≠ 0 := by
  have hlt : a < 16 := by have := ha.2; omega
  exact haltSet_ne_zero_of_bit (i := a) (by simp [← withHalt_eq, StationControl.addHalt, addressBit_getLsbD, hlt])

/-! ### Announcing, by what is queued (R67) -/

theorem StationControl.announceStep_of_some {c : StationControl} {k q : Announced} (hqueued : c.queued = some q) :
    c.announceStep k = ({ c with owed := if q = k then none else some k }, false) := by
  cases c
  subst hqueued
  cases q <;> cases k <;> rfl

theorem State.announceQuiet_of_none {k : Announced} (hqueued : s.control.queued = none) :
    s.announceQuiet k = State.addQuiet { s with control := { s.control with queued := some k } }
      (s.control.announcement k) 0 := by
  unfold State.announceQuiet StationControl.announceStep
  rw [hqueued]
  cases k <;> rfl

theorem State.announceQuiet_of_some {k q : Announced} (hqueued : s.control.queued = some q) :
    s.announceQuiet k = { s with control := { s.control with owed := if q = k then none else some k } } := by
  rw [State.announceQuiet, StationControl.announceStep_of_some hqueued]
  rfl

theorem State.announce_of_none {k : Announced} (hqueued : s.control.queued = none) :
    s.announce k = State.add { s with control := { s.control with queued := some k } } (s.control.announcement k) 0 := by
  unfold State.announce StationControl.announceStep
  rw [hqueued]
  cases k <;> rfl

theorem State.announce_of_some {k q : Announced} (hqueued : s.control.queued = some q) :
    s.announce k = { s with control := { s.control with owed := if q = k then none else some k } } := by
  rw [State.announce, StationControl.announceStep_of_some hqueued]
  rfl

/-- The own halt raised while no announcement is under way, with room in the queue (R65, R67). -/
theorem State.raiseOwnHalt_of_none {r : Nat} {tag : Option Tag} (hactive : s.port.active = true)
    (hroom : s.port.queue.length < 8) (hqueued : s.control.queued = none) :
    s.raiseOwnHalt r tag = State.queued
      { s with
        control := { withHalt s.control (Image.address s.image) r tag with
          ownHalt := some ⟨r, tag⟩, queued := some .halt } } (.halt r tag) := by
  refine (State.announceQuiet_of_none (by exact hqueued)).trans ?_
  exact State.addQuiet_of_room hactive hroom

/-- The own halt raised with an announcement under way (R67). -/
theorem State.raiseOwnHalt_of_some {r : Nat} {tag : Option Tag} {q : Announced} (hqueued : s.control.queued = some q) :
    s.raiseOwnHalt r tag = { s with
      control := { withHalt s.control (Image.address s.image) r tag with
        ownHalt := some ⟨r, tag⟩, owed := if q = .halt then none else some .halt } } := by
  refine (State.announceQuiet_of_some (by exact hqueued)).trans ?_
  rfl

/-- A change of the parked condition alone, as a command's end takes it. -/
theorem reviewDrop_of_parked {before : State} (hbefore : before.parked = true)
    (hhalt : s.control.haltSet = before.control.haltSet) (hmap : s.feed.map = before.feed.map) :
    reviewDrop before s = if s.parked then s else s.evalDrop := by
  rw [reviewDrop_of_same_halt_map hhalt hmap]
  cases h : s.parked <;> simp [hbefore]

/-- With a member in the halt set after the command, no drop follows it. -/
theorem reviewDrop_of_halted {before : State} (h : s.control.haltSet ≠ 0) : reviewDrop before s = s := by
  unfold reviewDrop
  rw [State.evalDrop_of_halted h, ite_self]

theorem execHoldInputChange_eq (active : Bool) :
    let u := { s with control := { s.control with holdInput := active } }
    execHoldInputChange active s = .next
      (if s.parked = false ∧ active = true ∧ s.role = some .sort then { u with sort := u.sort.parkBegin }
       else if s.parked = true ∧ u.parked = false then u.evalDrop else u) := by
  intro u
  have hbegins : s.parked = false → (u.parked = true ↔ active = true) := by
    intro h
    simp only [State.parked, State.parkCause, Bool.or_eq_false_iff] at h
    obtain ⟨hrunning, ⟨hlost, -⟩, hhold⟩ := h
    have hrunning : s.running = true := by simpa using hrunning
    have hu : u.parked = (!s.running || (s.travel.lost || active || s.faults.holdPending)) := rfl
    rw [hu, hrunning, hlost, hhold]
    simp
  have hexec : execHoldInputChange active s = .next (reviewDrop s (followParkBegin s u)) := rfl
  rw [hexec]
  by_cases h : s.parked = false ∧ active = true ∧ s.role = some .sort
  · obtain ⟨hparked, hactive, hrole⟩ := h
    have hu : u.parked = true := (hbegins hparked).mpr hactive
    have hrole' : u.role = some .sort := hrole
    rw [if_pos ⟨hparked, hactive, hrole⟩, followParkBegin_of hu, if_pos ⟨hparked, hrole'⟩]
    refine congrArg _ ((reviewDrop_of_same_halt_map (before := s) (s := { u with sort := u.sort.parkBegin }) rfl rfl).trans
      (if_neg ?_))
    simp [hparked]
  · have hfollow : followParkBegin s u = u := by
      refine if_neg fun hc => h ?_
      simp only [Bool.and_eq_true, Bool.not_eq_true', beq_iff_eq] at hc
      obtain ⟨⟨hparked, hu⟩, hrole⟩ := hc
      exact ⟨hparked, (hbegins hparked).mp hu, hrole⟩
    rw [if_neg h, hfollow]
    exact congrArg _ (reviewDrop_of_same_halt_map (before := s) (s := u) rfl rfl)

theorem State.haltAtEntry_of_none (h : s.faults.haltKind = none) : s.haltAtEntry = s := by
  rw [State.haltAtEntry, h]

theorem State.haltAtEntry_of_kind {k : FaultKind} (h : s.faults.haltKind = some k) :
    s.haltAtEntry = s.raiseOwnHalt k.number none := by
  rw [State.haltAtEntry, h]

/-- Settles O21: the hold input as a park cause, and the entry to RUNNING. -/
theorem holdInputAndSettleExpiry : Obligations.HoldInputAndSettleExpiry := by
  refine ⟨fun s active => execHoldInputChange_eq active, fun s n start hstate htimer => ?_⟩
  have hparked : s.parked = true := State.parked_of_not_running (by simp [State.running, hstate])
  have hentry : exec .settleTimerExpiry s = .next (reviewDrop s (State.haltAtEntry { s with
      timeBase := max s.timeBase (start + n)
      control := { s.control with state := .running, settleTimer := .stopped } })) := by
    refine (if_pos ⟨by rw [htimer]; rfl, hstate⟩).trans ?_
    rw [htimer]
    rfl
  generalize hu : ({ s with
      timeBase := max s.timeBase (start + n)
      control := { s.control with state := .running, settleTimer := .stopped } } : State) = u at hentry
  have hfaults : u.faults = s.faults := by rw [← hu]
  have hmap : u.feed.map = s.feed.map := by rw [← hu]
  have hset : u.control.haltSet = s.control.haltSet := by rw [← hu]
  refine ⟨fun hnone => ?_, fun k hkind haddress hactive hroom hqueued => ?_⟩
  · rw [hentry, State.haltAtEntry_of_none (hfaults ▸ hnone), reviewDrop_of_parked hparked hset hmap, ← hu]
  · have hraised := State.raiseOwnHalt_of_none (s := u) (r := k.number) (tag := none) (by rw [← hu]; exact hactive)
      (by rw [← hu]; exact hroom) (by rw [← hu]; exact hqueued)
    have haddress' : isAddress (Image.address u.image) := by rw [← hu]; exact haddress
    rw [hentry, State.haltAtEntry_of_kind (hfaults ▸ hkind), hraised,
      reviewDrop_of_halted (State.haltSet_of_withHalt_ne_zero (r := k.number) (tag := none) u.control haddress'), ← hu]
    rfl

/-! ### JOIN (R53) -/

theorem Image.eyeIsOff_iff {im : Image} {k : Lane} : Image.eyeIsOff im k = true
    ↔ Image.byte im 0x002 ≤ k.val ∨ (Image.byte im 0x008).testBit k.val = true := by
  have hlt : k.val < 4 := k.isLt
  rw [Image.eyeIsOff, Bool.or_eq_true, decide_eq_true_eq, Image.laneCount, hasLane, Image.eyesOff,
    BitVec.getLsbD_ofNat, decide_eq_true hlt, Bool.true_and]

theorem Eye.renewed_eyeIsOff (e : Eye) (im : Image) (k : Lane) : e.renewed (Image.eyeIsOff im k) =
    { e with
      state := if Image.byte im 0x002 ≤ k.val ∨ (Image.byte im 0x008).testBit k.val = true then .off else .normal
      losses := 0, clearRun := 0, blockedRun := 0 } := by
  by_cases h : Image.byte im 0x002 ≤ k.val ∨ (Image.byte im 0x008).testBit k.val = true
  · rw [if_pos h, Image.eyeIsOff_iff.mpr h]
    rfl
  · have hoff : Image.eyeIsOff im k = false := by simpa using mt Image.eyeIsOff_iff.mp h
    rw [if_neg h, hoff]
    rfl

/-- Settles O22: the blocks that JOIN sets, and its PRESENT in the empty queue. -/
theorem joinAccepted : Obligations.JoinAccepted := by
  intro s hstate hdeparture
  have hjoin : exec .join s = .next (s.respond s.joinLine 0 0x00 []) := if_neg (by simp [hstate, hdeparture])
  have hadd : s.joinLine = State.queued s.joined (s.joined.presentNotice false) :=
    State.add_of_room (s := s.joined) rfl (Nat.zero_lt_succ 7) _ 0
  have hloss : s.joined.travel.lossTimer
      = if s.travel.beltRun then .running (10 * Image.byte s.image 0x006) s.timeBase else .stopped := by
    simp only [State.joined, State.renewEyes, State.startTimer, Image.lossMs, Nat.mul_comm (Image.byte _ 0x006)]
    rfl
  have heyes : s.joined.eyes = s.eyes.mapAt fun k (e : Eye) =>
      { e with
        state := if Image.byte s.image 0x002 ≤ k.val ∨ (Image.byte s.image 0x008).testBit k.val = true
          then .off else .normal
        losses := 0, clearRun := 0, blockedRun := 0 } :=
    congrArg s.eyes.mapAt (funext fun k => funext fun e => e.renewed_eyeIsOff s.image k)
  rw [hjoin, hadd, ← hloss, ← heyes]
  rfl

/-! ### STOP LINE and RESUME (R65, R66, R67) -/

/-- The own halt ended with no announcement under way and room in the queue (R66, R67). -/
theorem State.endOwnHalt_of_none (hactive : s.port.active = true) (hroom : s.port.queue.length < 8)
    (hqueued : s.control.queued = none) :
    s.endOwnHalt = State.queued { s with
      control := { withoutHalt s.control (Image.address s.image) with ownHalt := none, queued := some .resume } }
      .resume := by
  refine (State.announce_of_none (by exact hqueued)).trans ?_
  exact State.add_eq_queued (by exact hactive) (by exact hroom)

/-- The own halt ended with an announcement under way (R66, R67). -/
theorem State.endOwnHalt_of_some {q : Announced} (hqueued : s.control.queued = some q) :
    s.endOwnHalt = { s with
      control := { withoutHalt s.control (Image.address s.image) with
        ownHalt := none, owed := if q = .resume then none else some .resume } } := by
  refine (State.announce_of_some (by exact hqueued)).trans ?_
  rfl

/-- With a member in the halt set before, a command that leaves the park and the map brings the drop test exactly where
it empties the set (R134). -/
theorem reviewDrop_of_halted_before {before : State} (hbefore : before.control.haltSet ≠ 0)
    (hparked : s.parked = before.parked) (hmap : s.feed.map = before.feed.map) :
    reviewDrop before s = if s.control.haltSet = 0 then s.evalDrop else s := by
  have hno : before.noHalt = false := by simpa [State.noHalt] using hbefore
  have hone : s.noHalt = true ↔ s.control.haltSet = 0 := by simp [State.noHalt]
  simp [reviewDrop, hno, hparked, hmap, hone]

theorem exec_stopLine_of_running (hrunning : s.running = true)
    (hown : s.control.haltSet.getLsbD (Image.address s.image) = false) :
    exec .stopLine s = .next (answered s (s.raiseOwnHalt 0 none) 0 [0x00]) := by
  have hnot : ¬ (!s.running) = true := by simp [hrunning]
  have hout : ¬ s.ownHaltOut = true := fun h => Bool.false_ne_true (hown.symm.trans h)
  exact (if_neg hnot).trans (if_neg hout)

theorem exec_resume_of_halted (hstate : s.control.state ≠ .lockout)
    (hown : s.control.haltSet.getLsbD (Image.address s.image) = true) (hkind : s.faults.haltKind = none) :
    exec .resume s = .next (answered s (reviewDrop s s.endOwnHalt) 0 [0x00]) := by
  have hout : ¬ (!s.ownHaltOut) = true := by simpa using (show s.ownHaltOut = true from hown)
  have hnone : ¬ s.faults.haltKind.isSome = true := by simp [hkind]
  exact (if_neg hstate).trans ((if_neg hout).trans (if_neg hnone))

/-- Settles O24: the announcement by the three cases of R67's table. -/
theorem ownHaltCommands : Obligations.OwnHaltCommands := by
  refine ⟨fun s hrunning haddress hown hactive hroom => ?_, fun s hstate hown hkind hactive hroom => ?_⟩
  · intro own c
    refine ⟨_, exec_stopLine_of_running hrunning hown, ?_, fun hqueued => ?_, fun hqueued => ?_, fun hqueued => ?_⟩
    · have hset : (s.raiseOwnHalt 0 none).control.haltSet ≠ 0 := by
        cases hqueued : s.control.queued with
        | none =>
          rw [State.raiseOwnHalt_of_none hactive hroom hqueued]
          exact State.haltSet_of_withHalt_ne_zero (r := 0) (tag := none) s.control haddress
        | some q =>
          rw [State.raiseOwnHalt_of_some hqueued]
          exact State.haltSet_of_withHalt_ne_zero (r := 0) (tag := none) s.control haddress
      have hstop : (s.raiseOwnHalt 0 none).lineStop = true := by simpa [State.lineStop, State.noHalt] using hset
      exact hstop
    · rw [State.raiseOwnHalt_of_none hactive hroom hqueued]
    · rw [State.raiseOwnHalt_of_some hqueued]
      rfl
    · rw [State.raiseOwnHalt_of_some hqueued]
      rfl
  · intro c after
    have hset : s.control.haltSet ≠ 0 := haltSet_ne_zero_of_bit hown
    have hexec := exec_resume_of_halted hstate hown hkind
    have hreview (t : State) (hparked : t.parked = s.parked) (hmap : t.feed.map = s.feed.map) :
        reviewDrop s t = after t := reviewDrop_of_halted_before hset hparked hmap
    refine ⟨fun hqueued => ?_, fun hqueued => ?_, fun hqueued => ?_⟩
    · rw [hexec, State.endOwnHalt_of_none hactive hroom hqueued, hreview] <;> rfl
    · rw [hexec, State.endOwnHalt_of_some hqueued, hreview] <;> rfl
    · rw [hexec, State.endOwnHalt_of_some hqueued, hreview] <;> rfl

/-! ### The idle medium and the start of a send attempt (R30, R39, R45) -/

theorem LinePort.maySend_iff {p : LinePort} : p.maySend = true
    ↔ p.active = true ∧ p.medium = .idle ∧ p.offLine = false ∧ p.inSend = none := by
  simp [LinePort.maySend, and_assoc]

theorem execSendAttemptStart_of_not_maySend (h : s.port.maySend = false ∨ s.port.queue = []) :
    execSendAttemptStart s = .next s := by
  refine if_neg fun hc => ?_
  rw [Bool.and_eq_true, Bool.not_eq_true'] at hc
  obtain ⟨hmay, hqueue⟩ := hc
  rcases h with h | h
  · exact absurd (hmay.symm.trans h) (by simp)
  · simp [h] at hqueue

/-- Settles O27: the medium's two forms, and the first waiting frame put in send. -/
theorem idleAndSendStart : Obligations.IdleAndSendStart := by
  intro s
  refine ⟨fun hactive hmedium => if_pos ⟨hactive, hmedium⟩, fun h => if_neg fun hc => ?notIdle,
    fun hactive hmedium => ?start, fun h => ?noStart, fun x rest hactive hmedium hoff hqueue hwait => ?send,
    fun h => ?nothing⟩
  case notIdle =>
    obtain ⟨hactive, hmedium⟩ := hc
    rcases h with h | h
    · exact absurd (hactive.symm.trans h) (by simp)
    · exact hmedium h
  case start =>
    refine ⟨?_, execSendAttemptStart_of_not_maySend (.inl ?_)⟩
    · have hread : s.port.readStartBit = { s.port with medium := .following false } := if_pos ⟨hactive, hmedium⟩
      exact congrArg (fun p => Host.Outcome.next { s with port := p }) hread
    · simp [LinePort.maySend]
  case noStart =>
    have hread : s.port.readStartBit = s.port := by
      refine if_neg fun ⟨hactive, hmedium⟩ => ?_
      rcases h with h | h
      · exact absurd (hactive.symm.trans h) (by simp)
      · exact h hmedium
    exact congrArg (fun p => Host.Outcome.next { s with port := p }) hread
  case send =>
    have hnone : s.port.inSend = none := by
      rw [LinePort.inSend, List.find?_eq_none]
      intro y hy
      simp [hwait y hy]
    have hmay : s.port.maySend = true := LinePort.maySend_iff.mpr ⟨hactive, hmedium, hoff, hnone⟩
    have hfirst : startFirst s.port.queue = x.started :: rest := by
      rw [hqueue, startFirst, hwait x (by simp [hqueue])]
      rfl
    have hstarted : x.started
        = ⟨x.notice.stamped (if x.age ≤ 1023 then ⟨x.age, false⟩ else ⟨1023, true⟩), x.age, true⟩ := rfl
    refine (if_pos (by simp [hmay, hqueue])).trans ?_
    rw [hfirst, hstarted]
    cases x.notice <;> rfl
  case nothing =>
    refine execSendAttemptStart_of_not_maySend ?_
    rcases h with h | h | h | h
    · exact .inl (by simp [LinePort.maySend, h])
    · exact .inl (by simp [LinePort.maySend, h])
    · exact .inl (by simp [LinePort.maySend, h])
    · exact .inr h

end Sys2Proof.Machine
end

section
/-! PROOFS. The reads of the station processor: the status word, the fault report, the tally records and the image
(R183, R186, R187, R190). -/

namespace Sys2Proof.Machine

open Sys2Proof

variable {s : State}

/-! ### The parts of the status word (R190) -/

theorem FaultUnit.holdPending_iff {u : FaultUnit} : u.holdPending = true
    ↔ ∃ k : FaultKind, u.pending.getLsbD k.place.val = true ∧ (u.policyFor k).severity = .hold := by
  have hall (k : FaultKind) : k ∈ faultKinds := by cases k <;> decide
  rw [FaultUnit.holdPending, Bool.not_eq_true', List.isEmpty_eq_false_iff_exists_mem]
  exact exists_congr fun k => by simp [FaultUnit.pendingOf, hall k, FaultUnit.isPending]

/-- A flag's weight in a byte, as a case distinction and as a product. -/
theorem ite_weight (b : Bool) (w : Nat) : (if b = true then w else 0) = w * b.toNat := by
  cases b <;> simp

theorem tagBytes_eq (t : Option Tag) : (match t with
    | none => [0, 0]
    | some x => [x.origin, x.seq]) = tagBytes t := by
  cases t <;> rfl

theorem faultRecord_length (o : Option Occurrence) : (faultRecord o).length = 6 := by
  cases o with
  | none => rfl
  | some o => cases o with | mk kind tag lane detail => cases tag <;> rfl

theorem State.holeReport_eq : s.holeReport
    = BitVec.ofNat 8 ((match s.ownHole with | none => 0 | some x => if x.confirmed then 2 else 1)
        + 4 * s.hole.frame.code)
      :: wordBytes (BitVec.ofInt 16 (match s.ownHole with | none => 0 | some x => x.head)).toNat := by
  unfold State.holeReport
  cases s.ownHole <;> rfl

theorem whenPresent_true (l : List Byte) : whenPresent true l = l := rfl

theorem whenPresent_false (l : List Byte) : whenPresent false l = List.replicate l.length 0 := by
  simp [whenPresent, List.map_const']

theorem tagBytes_length (t : Option Tag) : (tagBytes t).length = 2 := by cases t <;> rfl

theorem State.statusWord_length : s.statusWord.length = 49 := by
  obtain ⟨a, b, htag⟩ := tagBytes_eq_pair (s.control.firstHalt.bind (·.tag))
  have hpresent (p : Bool) (l : List Byte) : (whenPresent p l).length = l.length := by cases p <;> simp [whenPresent]
  simp [State.statusWord, htag, hpresent, faultRecord_length, wordBytes, State.holeReport, Stacker.report]

theorem State.faultReport_length : s.faultReport.length = 25 := by
  simp [State.faultReport, faultRecord_length, wordBytes]

/-- Settles O45: the status word part by part, and where each block's bytes stand. -/
theorem readReports : Obligations.ReadReports := by
  refine ⟨fun s holdFault hhold => ?word, fun s => ?_⟩
  case word =>
    have hholdFault : holdFault = s.faults.holdPending := by
      rw [Bool.eq_iff_iff, hhold, FaultUnit.holdPending_iff]
    intro n8 two bit tag eye stacker own record feed station tracker belt sorting
    have htwo (n : Nat) : two n = wordBytes n := (wordBytes_eq_div_mod n).symm
    have htag (t : Option Tag) : tag t = tagBytes t := tagBytes_eq t
    have hbit (b : Bool) (n : Nat) : bit b n = 2 ^ n * b.toNat := ite_weight b _
    have hrecord : record = faultRecord s.faults.first := by
      cases hfirst : s.faults.first with
      | none => simp only [record, hfirst]; rfl
      | some o =>
        simp only [record, hfirst, htag, htwo, faultRecord]
        cases o.lane <;> rfl
    have heye (k : Lane) : eye k = (s.eyes.get k).report := by
      simp only [eye, hbit, Eye.report]
      cases (s.eyes.get k).state <;> simp [EyeState.code, n8]
    have hstacker (c : StackerNo) : stacker c = (s.sort.stackers.get c).report := by
      simp only [stacker, hbit, Stacker.report, n8]
      rfl
    have hheader : station = [BitVec.ofNat 8 s.control.state.code, BitVec.ofNat 8 (lockoutCode s.control.lockoutCause),
          bitsByte s.parked s.travel.lost s.control.holdInput s.faults.holdPending s.control.restartFlag
            s.control.departure s.spi.frozen s.travel.beltRun, s.statusByte03]
        ++ wordBytes s.control.haltSet.toNat
        ++ ([BitVec.ofNat 8 ((s.control.firstHalt.map (·.address)).getD 0),
            BitVec.ofNat 8 ((s.control.firstHalt.map (·.reason)).getD 0)]
          ++ tagBytes (s.control.firstHalt.bind (·.tag)))
        ++ wordBytes s.travel.count.toNat
        ++ [s.control.seq, BitVec.ofNat 8 s.port.failures, BitVec.ofNat 8 s.port.queue.length] := by
      simp only [station, htwo, htag]
      refine congrArg₂ (· ++ ·) (congrArg₂ (· ++ ·) (congrArg₂ (· ++ ·) (congrArg₂ (· ++ ·) ?_ rfl) ?_) rfl) rfl
      · simp only [List.cons.injEq, and_true]
        refine ⟨?_, ?_, ?_, ?_⟩
        · cases s.control.state <;> rfl
        · rcases s.control.lockoutCause with _ | _ | _ <;> rfl
        · rw [hholdFault]
          simp only [hbit, bitsByte, n8, pow_zero, one_mul, Nat.reducePow, pow_one]
        · have hfeed : (s.role == some .feed) = decide feed := beq_eq_decide _ _
          rw [State.statusByte03, hfeed]
          by_cases h : feed
          · simp only [hbit, h, if_true, decide_true, Bool.true_and, n8]
            cases s.feed.handshake <;> simp [Handshake.code, Nat.add_assoc]
          · simp only [hbit, h, if_false, decide_false, Bool.false_and, n8]
            simp
      · cases s.control.firstHalt <;> rfl
    have htracker : tracker = whenPresent s.tracks [BitVec.ofNat 8 s.tracker.entries.length,
        BitVec.ofNat 8 ((lanes.filter fun k => (s.tracker.orphans.get k).isSome).length
          + 16 * s.tracker.adopted.length)] := by
      have htracks : s.tracks = true ↔ s.role = some .check ∨ s.role = some .sort := by simp [State.tracks]
      by_cases h : s.role = some .check ∨ s.role = some .sort
      · rw [htracks.mpr h, whenPresent_true]
        simp only [tracker, h, if_true, List.countP_eq_length_filter]
        rfl
      · rw [Bool.eq_false_iff.mpr (mt htracks.mp h), whenPresent_false]
        simp only [tracker, h, if_false]
        rfl
    have hbelt : belt = whenPresent (s.role == some .feed)
        ([BitVec.ofNat 8 s.feed.queue.length, BitVec.ofNat 8 s.feed.map.length] ++ wordBytes s.feed.patience
          ++ s.holeReport) := by
      by_cases h : s.role = some .feed
      · rw [beq_iff_eq.mpr h, whenPresent_true, State.holeReport_eq]
        simp only [belt, feed, h, if_true, htwo, own]
        refine (List.append_assoc _ _ _).trans (congrArg₂ (· ++ ·) rfl (congrArg₂ List.cons ?_ rfl))
        cases s.hole.frame <;> rfl
      · rw [beq_eq_false_iff_ne.mpr h, whenPresent_false]
        simp only [belt, feed, h, if_false]
        rfl
    have hsorting : sorting = whenPresent (s.role == some .sort)
        ([BitVec.ofNat 8 s.sort.actions.length, BitVec.ofNat 8 s.sort.route.code]
          ++ s.sort.stackers.q0.report ++ s.sort.stackers.q1.report ++ s.sort.stackers.q2.report
          ++ s.sort.stackers.q3.report ++ wordBytes s.sort.runout ++ [BitVec.ofNat 8 s.sort.tally.length]) := by
      by_cases h : s.role = some .sort
      · rw [beq_iff_eq.mpr h, whenPresent_true]
        simp only [sorting, h, if_true, htwo, hstacker]
        cases s.sort.route <;> rfl
      · rw [beq_eq_false_iff_ne.mpr h, whenPresent_false]
        simp only [sorting, h, if_false]
        rfl
    refine ⟨?_, hrecord.symm⟩
    rw [hheader, htracker, hbelt, hsorting, hrecord, heye, heye, heye, heye, htwo]
    simp only [State.statusWord, List.append_assoc]
    rfl
  obtain ⟨a, b, htag⟩ := tagBytes_eq_pair (s.control.firstHalt.bind (·.tag))
  refine ⟨rfl, State.statusWord_length, ?report, faultRecord_length _, State.faultReport_length, fun h => ?noTracker,
    fun h => ?noBelt, fun h => ?noSort, ⟨s.statusByte03, rfl, fun h => ?flags⟩⟩
  case report =>
    refine congrArg (fun l => Host.Outcome.next (answered s s 0 (0x00 :: l))) ?_
    rw [State.faultReport, wordBytes_eq_div_mod]
    cases s.faults.more <;> rfl
  case noTracker =>
    have htracks : s.tracks = false := by rw [State.tracks, h]; rfl
    rw [State.statusWord, htag, htracks]
    rfl
  case noBelt =>
    rw [State.statusWord, htag, beq_eq_false_iff_ne.mpr h]
    cases s.tracks <;> rfl
  case noSort =>
    rw [State.statusWord, htag, beq_eq_false_iff_ne.mpr h]
    cases s.tracks <;> cases (s.role == some .feed) <;> rfl
  case flags =>
    rw [State.statusByte03, beq_eq_false_iff_ne.mpr h]
    simp only [Bool.false_and, Bool.false_eq_true, if_false]
    cases s.port.offLine <;> cases s.faults.more <;> decide

/-! ### READ TALLY and READ IMAGE (R183, R187) -/

theorem execReadTally_of_count {n : Byte} (hpos : 1 ≤ n.toNat) (hle : n.toNat ≤ 16) :
    execReadTally n s = .next (answered s (s.takeTally n.toNat) 1 (0x00 :: tallyBytes s.tallyQueue n.toNat)) := by
  refine if_neg fun h => ?_
  have hcapacity : Config.tallyCapacity = 16 := rfl
  omega

theorem Tally.report_eq (t : Tally) : t.report =
    [BitVec.ofNat 8 t.stacker.val, BitVec.ofNat 8 (t.profile.getD 0), BitVec.ofNat 8 t.count,
      BitVec.ofNat 8 t.reason.code, BitVec.ofNat 8 (t.mixed.toNat + 2 * t.unverified.toNat)]
    ++ tagBytes t.first ++ tagBytes t.last := rfl

/-- Settles O46: the tally queue as the role shows it, each record's bytes, and the image's. -/
theorem readTallyAndImage : Obligations.ReadTallyAndImage := by
  intro s
  refine ⟨fun n hpos hle => ⟨fun hrole => ?sort, fun hrole => ?other⟩, fun t => ⟨?length, ?bytes⟩,
    fun o n hpos hle hend hlength => ?image⟩
  case sort =>
    have hqueue : s.tallyQueue = s.sort.tally := by rw [State.tallyQueue, hrole]
    have hdrop : s.sort.tally.drop (min n.toNat s.sort.tally.length) = s.sort.tally.drop n.toNat := by
      rcases Nat.le_total n.toNat s.sort.tally.length with h | h
      · rw [Nat.min_eq_left h]
      · rw [Nat.min_eq_right h, List.drop_length, List.drop_eq_nil_of_le h]
    refine (execReadTally_of_count hpos hle).trans ?_
    rw [State.takeTally, hqueue, hdrop]
    rfl
  case other =>
    have hqueue : s.tallyQueue = [] := by rcases hrole with hrole | hrole <;> rw [State.tallyQueue, hrole]
    have htake : s.takeTally n.toNat = s := by rw [State.takeTally, hqueue, List.length_nil, Nat.min_zero]; rfl
    refine (execReadTally_of_count hpos hle).trans ?_
    rw [htake, hqueue, tallyBytes, List.take_nil, if_pos (show ([] : List Tally).length < n.toNat from hpos)]
    rfl
  case length => simp [Tally.report_eq, tagBytes_length]
  case bytes =>
    rw [Tally.report_eq]
    cases t.profile <;> cases t.reason <;> cases t.mixed <;> cases t.unverified <;> cases t.first <;> cases t.last <;> rfl
  case image =>
    have hallowed : stretchAllowed o.toNat n.toNat = true := stretchAllowed_iff.mpr ⟨by omega, hle, hend⟩
    refine ⟨(s.image.drop o.toNat).take n.toNat, if_pos hallowed, ?_, fun i hi => ?_⟩
    · have hlength' : s.image.length = 320 := hlength
      rw [List.length_take, List.length_drop, hlength']
      omega
    · rw [List.getElem?_take_of_lt hi, List.getElem?_drop]
      rfl

end Sys2Proof.Machine
end

section
/-! PROOFS. The transmit queue, the ends of a send attempt, the drop and the choice of a hole. -/

namespace Sys2Proof.Machine

open Sys2Proof

variable {s : State}

/-! ### Adding a frame (R40) -/

theorem takeLastWaiting_of_inSend {q : List Slot} (h : ∀ z ∈ q, z.inSend = true) : takeLastWaiting q = none := by
  induction q with
  | nil => rfl
  | cons y rest ih =>
    rw [takeLastWaiting, ih fun z hz => h z (List.mem_cons_of_mem y hz)]
    exact if_pos (h y List.mem_cons_self)

/-- The last waiting frame is the one with none waiting after it. -/
theorem takeLastWaiting_middle (l : List Slot) {y : Slot} {r : List Slot} (hy : y.inSend = false)
    (hr : ∀ z ∈ r, z.inSend = true) : takeLastWaiting (l ++ y :: r) = some (y, l ++ r) := by
  induction l with
  | nil =>
    rw [List.nil_append, takeLastWaiting, takeLastWaiting_of_inSend hr]
    exact if_neg (by simp [hy])
  | cons x l ih => rw [List.cons_append, takeLastWaiting, ih]; rfl

theorem putFrame_of_lower {l r : List Slot} {x y : Slot} (hlength : (l ++ y :: r).length = 8) (hy : y.inSend = false)
    (hr : ∀ z ∈ r, z.inSend = true) (h : x.notice.code < y.notice.code) :
    putFrame (l ++ y :: r) x = (insertSlot x (l ++ r), some y) := by
  rw [putFrame, if_neg (by rw [hlength]; decide), takeLastWaiting_middle l hy hr]
  exact if_pos h

theorem putFrame_of_not_lower {l r : List Slot} {x y : Slot} (hlength : (l ++ y :: r).length = 8) (hy : y.inSend = false)
    (hr : ∀ z ∈ r, z.inSend = true) (h : y.notice.code ≤ x.notice.code) :
    putFrame (l ++ y :: r) x = (l ++ y :: r, some x) := by
  rw [putFrame, if_neg (by rw [hlength]; decide), takeLastWaiting_middle l hy hr]
  exact if_neg (Nat.not_lt.mpr h)

/-- A frame put into the full queue of an active port: which frame is put out, and the queue without it. -/
theorem State.put_of_putOut {n : Notice} {age : Nat} {q : List Slot} {y : Slot} (hactive : s.port.active = true)
    (h : putFrame s.port.queue ⟨n, age, false⟩ = (q, some y)) :
    s.put n age = ((s.withQueue q).discardReport y, some y) := by
  rw [State.put, if_pos hactive, h]
  rfl

theorem State.add_of_putOut {n : Notice} {age : Nat} {q : List Slot} {y : Slot} (hactive : s.port.active = true)
    (h : putFrame s.port.queue ⟨n, age, false⟩ = (q, some y)) :
    s.add n age = ((s.withQueue q).discardReport y).occur (((s.withQueue q).discardReport y).putOutOccurrence y) := by
  rw [State.add, State.put_of_putOut hactive h]

theorem withoutOwnHole_eq (map : List Stretch) : withoutOwnHole map = map.filter fun z => z.kind ≠ .ownHole :=
  List.filter_congr fun z _ => by cases z.kind <;> rfl

/-- Settles O36: the queue with room, and the frame put out of a full one. -/
theorem addFrame : Obligations.AddFrame := by
  intro s n age hactive
  refine ⟨fun hroom => State.add_of_room hactive hroom n age, fun l y r hlength hqueue hy hr => ?_⟩
  have hlength' : (l ++ y :: r).length = 8 := hqueue ▸ hlength
  have hother {z : Slot} (h : z.notice.code ≠ 6) : z.isHole = false := by simpa [Slot.isHole] using h
  refine ⟨fun hlower hkind => ?_, fun hlower hkind hframe => ?_, fun hupper hkind => ?_⟩
  · rw [State.add_of_putOut hactive (hqueue ▸ putFrame_of_lower hlength' hy hr hlower),
      State.discardReport_of_other y (hother hkind)]
    rfl
  · have hhole : y.isHole = true := by simpa [Slot.isHole] using hkind
    have hdiscarded (q : List Slot) : (s.withQueue q).holeDiscarded
        = { s.withQueue q with
            feed := { s.feed with patience := 0, map := withoutOwnHole s.feed.map }, hole := ⟨none, .none⟩ } := by
      have hframe' : (s.withQueue q).hole.frame = .current := hframe
      rw [State.holeDiscarded, hframe']
      rfl
    rw [State.add_of_putOut hactive (hqueue ▸ putFrame_of_lower hlength' hy hr hlower),
      State.discardReport_of_hole y hhole, hdiscarded]
    rw [withoutOwnHole_eq]
    rfl
  · have hput : putFrame s.port.queue ⟨n, age, false⟩ = (s.port.queue, some ⟨n, age, false⟩) := by
      rw [hqueue]
      exact putFrame_of_not_lower hlength' hy hr hupper
    rw [State.add_of_putOut hactive hput, State.discardReport_of_other _ (hother hkind)]
    rfl

/-! ### The three ends of an attempt (R35 to R38, R67, R69, R144) -/

theorem LinePort.inSend_of_find {x : Slot} (h : s.port.queue.find? (·.inSend) = some x) : s.port.inSend = some x := h

theorem State.takeCompletion_of_quiet {n : Notice} (h : n.code = 3 ∨ n.code = 4 ∨ n.code = 5 ∨ n.code = 7) :
    s.takeCompletion n = s := by
  cases n <;> simp [Notice.code] at h <;> rfl

theorem State.takeCompletion_of_hole {n : Notice} (h : n.code = 6) : s.takeCompletion n = s.holeCompleted := by
  cases n <;> simp [Notice.code] at h
  rfl

theorem State.takeCompletion_of_announced {n : Notice} (h : n.code = 1 ∨ n.code = 2) :
    s.takeCompletion n = s.announcementSent := by
  cases n <;> simp [Notice.code] at h <;> rfl

theorem State.holeCompleted_of_current (h : s.hole.frame = .current) :
    s.holeCompleted = { s with
      feed := { s.feed with
        map := s.feed.map.map fun x => if x.kind == .ownHole then { x with confirmed := true } else x }
      hole := { s.hole with frame := .none } } := by
  rw [State.holeCompleted, h]

theorem State.holeCompleted_of_not_current (h : s.hole.frame ≠ .current) :
    s.holeCompleted = { s with hole := { s.hole with frame := .none } } := by
  unfold State.holeCompleted
  cases hframe : s.hole.frame with
  | none => simp only [← hframe]
  | current => exact absurd hframe h
  | abandoned => rfl

theorem State.announcementSent_of_none (h : s.control.owed = none) :
    s.announcementSent = State.endDeparture { s with control := { s.control with queued := none } } := by
  rw [State.announcementSent, h]

theorem State.announcementSent_of_some {k : Announced} (h : s.control.owed = some k) :
    s.announcementSent = State.add { s with control := { s.control with queued := some k, owed := none } }
      (s.control.announcement k) 0 := by
  rw [State.announcementSent, h]
  cases k <;> rfl

/-- The frame in send leaves a queue of at most 8 frames with room for another. -/
theorem sent_room {q : List Slot} {x : Slot} (hx : q.find? (·.inSend) = some x) (hroom : q.length ≤ 8) :
    (q.filter fun y => !y.inSend).length < 8 := by
  have hlt : (q.filter fun y => !y.inSend).length < q.length := by
    refine List.length_filter_lt_length_iff_exists.mpr ⟨x, List.mem_of_find?_eq_some hx, ?_⟩
    simpa using List.find?_some hx
  omega

/-- Settles O29: the completion by the owner of the frame's kind. -/
theorem transmitCompletion : Obligations.TransmitCompletion := by
  intro s x hx sent
  have hexec : exec .transmitCompletion s = .next (sent.takeCompletion x.notice) := by
    have hin : s.port.inSend = some x := hx
    show execTransmitCompletion s = _
    rw [execTransmitCompletion, hin]
    rfl
  have howed : sent.control.owed = s.control.owed := rfl
  refine ⟨fun hcode => ?_, fun hcode hframe => ?_, fun hcode hframe => ?_, fun hcode hnone hstay => ?_,
    fun hcode hnone hdeparture => ?_, fun hcode hresume hactive hroom => ?_,
    fun r t hcode hhalt hown hactive hroom => ?_⟩
  · rw [hexec, State.takeCompletion_of_quiet hcode]
  · rw [hexec, State.takeCompletion_of_hole hcode, State.holeCompleted_of_current (s := sent) hframe]
    simp only [beq_iff_eq]
  · rw [hexec, State.takeCompletion_of_hole hcode, State.holeCompleted_of_not_current (s := sent) hframe]
  · rw [hexec, State.takeCompletion_of_announced hcode, State.announcementSent_of_none (howed.trans hnone)]
    refine congrArg _ (if_neg ?_)
    have hdeparture : sent.control.departure = false := hstay
    simp [hdeparture]
  · rw [hexec, State.takeCompletion_of_announced hcode, State.announcementSent_of_none (howed.trans hnone)]
    refine congrArg _ ((if_pos ?_).trans rfl)
    have hdeparture' : sent.control.departure = true := hdeparture
    simp [hdeparture', howed, hnone]
  · rw [hexec, State.takeCompletion_of_announced hcode, State.announcementSent_of_some (howed.trans hresume)]
    exact congrArg _ (State.add_eq_queued (by exact hactive) (by exact sent_room hx hroom))
  · have hnotice : sent.control.announcement .halt = .halt r t := by
      have hown' : sent.control.ownHalt = some ⟨r, t⟩ := hown
      rw [StationControl.announcement, hown']
      rfl
    rw [hexec, State.takeCompletion_of_announced hcode, State.announcementSent_of_some (howed.trans hhalt), hnotice]
    exact congrArg _ (State.add_eq_queued (by exact hactive) (by exact sent_room hx hroom))

/-! ### Lost contention and transmit failure (R35, R36, R38, R55) -/

theorem execTransmitFailure_of_inSend {x : Slot} {pos : Nat} (hx : s.port.inSend = some x) :
    execTransmitFailure pos s
      = if pos < (s.drives x).length ∧ ¬ s.contends x pos then .next (s.sendFailed x) else .next s := by
  rw [execTransmitFailure, hx]

theorem execLostContention_of_inSend {x : Slot} {pos : Nat} (hx : s.port.inSend = some x) :
    execLostContention pos s
      = if s.contends x pos then .next { s with port := { s.port.backToWaiting with medium := .following false } }
        else .next s := by
  rw [execLostContention, hx]

theorem Notice.isPresent_iff {n : Notice} : n.isPresent = true ↔ n.code = 7 := by
  cases n <;> simp [Notice.isPresent, Notice.code]

/-- A failed frame whose loss is no clash leaves the station where it is (R36, R55). -/
theorem State.takeClash_of_not_joining (h : s.control.state ≠ .joining) : s.takeClash = s := by
  unfold State.takeClash
  split
  · contradiction
  all_goals rfl

theorem State.takeClash_of_joining (h : s.control.state = .joining) : s.takeClash = s.lockOut .failedPresent := by
  rw [State.takeClash, h]

/-- The station after a transmit failure, before the clash that a failed PRESENT is (R36, R38). -/
def State.countedFailure (s : State) (x : Slot) : State :=
  let n := min Config.offLineFailures (s.port.failures + 1)
  let s1 := { s with port := { s.port.backToWaiting with failures := n, medium := .following true } }
  if n = Config.offLineFailures then s1.goOffLine x else s1

theorem State.sendFailed_eq (x : Slot) : s.sendFailed x
    = if x.notice.isPresent then (s.countedFailure x).takeClash else s.countedFailure x := rfl

theorem State.countedFailure_of_few (x : Slot) (h : s.port.failures < 15) :
    s.countedFailure x = { s with
      port := { s.port.backToWaiting with failures := s.port.failures + 1, medium := .following true } } := by
  have hn : min Config.offLineFailures (s.port.failures + 1) = s.port.failures + 1 := Nat.min_eq_right (by
    show s.port.failures + 1 ≤ 16
    omega)
  have hne : s.port.failures + 1 ≠ Config.offLineFailures := by
    show s.port.failures + 1 ≠ 16
    omega
  unfold State.countedFailure
  simp only [hn]
  exact if_neg hne

theorem State.countedFailure_of_last (x : Slot) (h : 15 ≤ s.port.failures) :
    s.countedFailure x = State.goOffLine { s with
      port := { s.port.backToWaiting with failures := 16, medium := .following true } } x := by
  have hn : min Config.offLineFailures (s.port.failures + 1) = 16 := Nat.min_eq_left (by
    show 16 ≤ s.port.failures + 1
    omega)
  unfold State.countedFailure
  simp only [hn]
  exact if_pos rfl

/-- A counted failure changes the port, and does what an occurrence does. -/
theorem State.countedFailure_quiet (x : Slot) : ∃ p, Quiet { s with port := p } (s.countedFailure x) := by
  rcases Nat.lt_or_ge s.port.failures 15 with h | h
  · exact ⟨_, by rw [State.countedFailure_of_few x h]; exact Quiet.refl _⟩
  · exact ⟨_, by rw [State.countedFailure_of_last x h]; exact State.occur_quiet _ _⟩

/-- Settles O28: the failure counted first, then the clash. -/
theorem attemptEndsEarly : Obligations.AttemptEndsEarly := by
  refine fun s pos => ⟨fun hnone => ?none, fun x hx => ?some⟩
  case none =>
    have hin : s.port.inSend = none := by
      rw [LinePort.inSend, List.find?_eq_none]
      intro y hy
      simp [hnone y hy]
    exact ⟨by show execLostContention pos s = _; rw [execLostContention, hin],
      by show execTransmitFailure pos s = _; rw [execTransmitFailure, hin]⟩
  case some =>
    intro ident contends back failed present
    have hin : s.port.inSend = some x := hx
    have hfail := execTransmitFailure_of_inSend (pos := pos) hin
    refine ⟨?_, fun hkept => ?_, fun hcontends hpos => ?_⟩
    · exact (execLostContention_of_inSend hin).trans (apply_ite _ _ _ _).symm
    · refine hfail.trans (if_neg fun ⟨hpos, hcontends⟩ => ?_)
      rcases hkept with h | h
      · exact hcontends h
      · exact absurd hpos (Nat.not_lt.mpr h)
    · have hexec : exec (.transmitFailure pos) s = .next (s.sendFailed x) :=
        hfail.trans (if_pos ⟨hpos, fun h => Bool.false_ne_true (hcontends.symm.trans h)⟩)
      obtain ⟨p, hquiet⟩ := s.countedFailure_quiet x
      have hstay (h : ¬ present) : s.sendFailed x = s.countedFailure x := by
        rw [State.sendFailed_eq]
        split
        next hkind =>
          have hstate : s.control.state ≠ .joining := fun hj => h ⟨Notice.isPresent_iff.mp hkind, hj⟩
          exact State.takeClash_of_not_joining (hquiet.state ▸ hstate)
        next => rfl
      refine ⟨fun hpresent hcount => ?_, fun hpresent hcount => ?_, fun hpresent => ?_⟩
      · rw [hexec, hstay hpresent, State.countedFailure_of_few x hcount]
        rfl
      · rw [hexec, hstay hpresent, State.countedFailure_of_last x hcount.ge]
        simp only [failed, back, hcount]
        rfl
      · obtain ⟨hkind, hjoining⟩ := hpresent
        have hlock : s.sendFailed x = (s.countedFailure x).lockOut .failedPresent := by
          rw [State.sendFailed_eq, if_pos (Notice.isPresent_iff.mpr hkind)]
          exact State.takeClash_of_joining (hquiet.state.trans hjoining)
        have htravel : (s.countedFailure x).travel = s.travel := hquiet.travel
        refine ⟨_, hexec.trans (congrArg _ hlock), rfl, rfl, rfl, rfl, rfl, rfl, rfl, hquiet.seq, hquiet.restartFlag, rfl,
          hquiet.spi, ?_, rfl, rfl, rfl, rfl, rfl, rfl⟩
        rw [← htravel]
        rfl

/-! ### The drop (R135, R149) -/

theorem mem_insertSlot {x y : Slot} {q : List Slot} : y ∈ insertSlot x q ↔ y = x ∨ y ∈ q :=
  (insertSlot_perm x q).mem_iff.trans List.mem_cons

theorem ownHoleOf_isSome_iff {map : List Stretch} : (ownHoleOf map).isSome = true ↔ ∃ x ∈ map, x.kind = .ownHole := by
  simp [ownHoleOf, List.find?_isSome]

/-- Which frames a withdraw of the HOLE leaves (R42). -/
theorem mem_withoutWaitingHole {x : Slot} {q : List Slot} :
    x ∈ withoutWaitingHole q ↔ x ∈ q ∧ (x.notice.code = 6 → x.inSend = true) := by
  rw [withoutWaitingHole, List.mem_filter]
  refine and_congr_right fun _ => ?_
  cases x.notice <;> simp [Notice.code]

theorem holdsHole_iff {q : List Slot} : holdsHole q = true ↔ ∃ y ∈ q, y.notice.code = 6 := by
  rw [holdsHole_eq, List.any_eq_true]
  simp [Slot.isHole]

/-- A queue with no waiting HOLE loses nothing to a withdraw. -/
theorem withoutWaitingHole_of_inSend {q : List Slot} (h : ∀ y ∈ q, y.notice.code = 6 → y.inSend = true) :
    withoutWaitingHole q = q := by
  rw [withoutWaitingHole, List.filter_eq_self]
  intro y hy
  have := h y hy
  cases hn : y.notice <;> simp_all [Notice.code]

/-- A queue whose HOLE waits loses it to a withdraw. -/
theorem withoutWaitingHole_of_waiting {q : List Slot} (h : ∀ y ∈ q, y.notice.code = 6 → y.inSend = false) :
    withoutWaitingHole q = q.filter fun y => y.notice.code ≠ 6 := by
  refine List.filter_congr fun y hy => ?_
  have := h y hy
  cases hn : y.notice <;> simp_all [Notice.code]

theorem State.withdraw_of_waiting (h : ∀ y ∈ s.port.queue, y.notice.code = 6 → y.inSend = false) :
    s.withdraw = (s.withQueue (s.port.queue.filter fun y => y.notice.code ≠ 6), true) := by
  have hnone : holdsHole (s.port.queue.filter fun y => y.notice.code ≠ 6) = false := by
    rw [← Bool.not_eq_true, holdsHole_iff]
    rintro ⟨y, hy, hcode⟩
    simp [hcode] at hy
  rw [State.withdraw, withoutWaitingHole_of_waiting h, hnone]
  rfl

theorem State.withdraw_of_inSend (hsome : ∃ y ∈ s.port.queue, y.notice.code = 6)
    (h : ∀ y ∈ s.port.queue, y.notice.code = 6 → y.inSend = true) : s.withdraw = (s, false) := by
  rw [State.withdraw, withoutWaitingHole_of_inSend h, holdsHole_iff.mpr hsome]
  rfl

theorem State.withdrawEnded_of_not_current (h : s.hole.frame ≠ .current) : s.withdrawEnded = s := if_neg h

theorem State.withdrawEnded_of_waiting (hframe : s.hole.frame = .current)
    (h : ∀ y ∈ s.port.queue, y.notice.code = 6 → y.inSend = false) :
    s.withdrawEnded = { s.withQueue (s.port.queue.filter fun y => y.notice.code ≠ 6) with
      hole := { s.hole with frame := .none } } := by
  rw [State.withdrawEnded, if_pos hframe, State.withdraw_of_waiting h]
  rfl

theorem State.withdrawEnded_of_inSend (hframe : s.hole.frame = .current) (hsome : ∃ y ∈ s.port.queue, y.notice.code = 6)
    (h : ∀ y ∈ s.port.queue, y.notice.code = 6 → y.inSend = true) :
    s.withdrawEnded = { s with hole := { s.hole with frame := .abandoned } } := by
  rw [State.withdrawEnded, if_pos hframe, State.withdraw_of_inSend hsome h]
  rfl

/-- The station at a drop, its own hole still to be used up (R135). -/
def State.released (s : State) (p : Piece) (rest : List Piece) : State :=
  let map := Machine.insertStretch (ownDropStretch (Image.address s.image) p) s.feed.map
  { s with
    port := { s.port with queue := insertSlot ⟨dropOf p s.feed.batchLatch, 0, false⟩ s.port.queue }
    feed := { s.feed with
      releaseTimer := .running (Image.byte s.image 0x01E) s.timeBase
      handshake := .clearing
      lastDropped := some p.tag
      map := map
      batchLatch := false
      queue := rest
      ready := false } }

theorem State.evalDrop_of_passed {p : Piece} {rest : List Piece} (hrole : s.role = some .feed)
    (hshake : s.feed.handshake = .ready) (hqueue : s.feed.queue = p :: rest) (htest : s.dropTest p = true)
    (hactive : s.port.active = true) (hroom : s.port.queue.length < 8) :
    s.evalDrop = (s.released p rest).useOwnHole.restartPatience := by
  have hmap : mapHasRoom s.feed.map = true := by
    rw [State.dropTest, Bool.and_eq_true] at htest
    exact htest.2
  have heval : s.evalDrop = s.drop p := by
    refine (if_pos ⟨hrole, hshake⟩).trans ?_
    rw [hqueue]
    exact if_pos htest
  rw [heval, State.drop]
  simp only [State.insertStretch, hmap, if_true]
  rw [State.add_of_room (by exact hactive) (by exact hroom)]
  simp only [hqueue, List.drop_succ_cons, List.drop_zero]
  rfl

/-- Settles O16: the own hole by the state of its HOLE. -/
theorem dropMade : Obligations.DropMade := by
  intro s p rest hrole hshake hqueue htest hactive hroom own map queue unused dropped
  have heval := State.evalDrop_of_passed hrole hshake hqueue htest hactive hroom
  have hown : (s.released p rest).ownHole.isSome = true ↔ ∃ x ∈ s.feed.map, x.kind = .ownHole := by
    rw [State.ownHole, ownHoleOf_isSome_iff]
    show (∃ x ∈ insertStretch (ownDropStretch (Image.address s.image) p) s.feed.map, _) ↔ _
    simp [mem_insertStretch, ownDropStretch]
  have hunused : withoutOwnHole map = unused := withoutOwnHole_eq map
  have hmem {y : Slot} : y ∈ queue → y.notice.code = 6 → y ∈ s.port.queue := by
    intro hy hcode
    refine (mem_insertSlot.mp hy).resolve_left fun h => ?_
    rw [h] at hcode
    simp [Notice.code] at hcode
  refine ⟨fun hnone => ?_, fun hsome => ?_⟩
  · rw [heval, State.useOwnHole, if_neg fun h => ?_]
    · rfl
    · obtain ⟨x, hx, hkind⟩ := hown.mp h
      exact hnone x hx hkind
  · have huse : (s.released p rest).useOwnHole = (s.released p rest).dropOwnHole.withdrawEnded := if_pos (hown.mpr hsome)
    have hdrop : (s.released p rest).dropOwnHole = { s.released p rest with
        feed := { (s.released p rest).feed with map := unused }, hole := { s.hole with fit := none } } := by
      rw [← hunused]
      rfl
    refine ⟨fun hframe => ?_, fun hframe hwaits => ?_, fun hframe hholds hsends => ?_⟩
    · rw [heval, huse, State.withdrawEnded_of_not_current (by exact hframe), hdrop]
      rfl
    · rw [heval, huse, State.withdrawEnded_of_waiting (by exact hframe) fun y hy hcode => hwaits y (hmem hy hcode) hcode,
        hdrop]
      rfl
    · obtain ⟨y, hy, hcode⟩ := hholds
      rw [heval, huse, State.withdrawEnded_of_inSend (by exact hframe) ⟨y, mem_insertSlot.mpr (.inr hy), hcode⟩
        fun z hz hcode => hsends z (hmem hz hcode) hcode, hdrop]
      rfl

/-! ### The choice of a hole (R142) -/

theorem holeFits_iff {im : Image} {map : List Stretch} {mask : LaneSet} {h a : Int} : holeFits im map mask h a = true
    ↔ (Image.word im 0x01A : Int) ≤ a ∧ a + h ≤ Image.word im 0x018
      ∧ ∀ x ∈ map, x.mask &&& mask ≠ 0 → ¬ (x.head ≤ a + h ∧ a ≤ x.head + x.length) := by
  simp only [holeFits, Bool.and_eq_true, decide_eq_true_eq, List.all_eq_true, Bool.not_eq_true', and_assoc]
  refine and_congr Iff.rfl (and_congr Iff.rfl (forall₂_congr fun x _ => ?_))
  rw [← Bool.not_eq_true, Stretch.meets_iff]
  tauto

/-- Settles O17: the minimum of the candidates that fit. -/
theorem holeHeadIsLeast : Obligations.HoleHeadIsLeast := by
  intro im map mask h good
  have hgood (a : Int) : a ∈ ((Image.holeLead im : Int) :: map.map fun x => x.tail + 1).filter (holeFits im map mask h)
      ↔ good a := by
    rw [List.mem_filter, List.mem_cons, List.mem_map, holeFits_iff]
    simp only [good, Stretch.tail, eq_comm (a := a), Image.holeLead]
    tauto
  refine ⟨fun a => ?_, ?_⟩
  · rw [holeHead, List.min?_eq_some_iff, hgood]
    exact and_congr Iff.rfl (forall_congr' fun b => by rw [hgood])
  · rw [holeHead, List.min?_eq_none_iff, List.eq_nil_iff_forall_not_mem]
    exact forall_congr' fun a => by rw [hgood]

/-! ### An occurrence (R172 to R176) -/

theorem FaultUnit.take_of_unmasked {u : FaultUnit} {o : Occurrence} (h : (u.policyFor o.kind).masked = false) :
    u.take o = { u with
      counts := u.counts.set o.kind.place (min 255 (u.counts[o.kind.place] + 1))
      pending := u.pending ||| o.kind.bit
      first := if u.first.isNone then some o else u.first
      more := u.more || u.first.isSome } :=
  if_neg (by rw [FaultUnit.policyFor] at h; exact fun h' => Bool.false_ne_true (h.symm.trans h'))

theorem FaultKind.at_place (k : FaultKind) : faultKinds[k.place.val]? = some k := by cases k <;> rfl

theorem FaultKind.place_inj {j k : FaultKind} : j.place = k.place ↔ j = k := by
  refine ⟨fun h => Option.some.inj ?_, fun h => h ▸ rfl⟩
  rw [← FaultKind.at_place j, h, FaultKind.at_place]

theorem FaultUnit.take_isPending {u : FaultUnit} {o : Occurrence} (h : (u.policyFor o.kind).masked = false)
    (k : FaultKind) : (u.take o).isPending k = (u.isPending k || decide (k = o.kind)) := by
  have hlt : o.kind.place.val < 16 := o.kind.place.isLt
  have hsame : o.kind.place.val = k.place.val ↔ k = o.kind := by
    rw [← Fin.ext_iff, FaultKind.place_inj]
    exact eq_comm
  rw [FaultUnit.take_of_unmasked h]
  simp only [FaultUnit.isPending, BitVec.getLsbD_or, FaultKind.bit_eq_twoPow, BitVec.getLsbD_twoPow, hsame, hlt,
    decide_true, Bool.true_and]

theorem FaultUnit.take_policyFor (u : FaultUnit) (o : Occurrence) (k : FaultKind) :
    (u.take o).policyFor k = u.policyFor k := by
  rw [FaultUnit.policyFor, FaultUnit.take_policy, FaultUnit.policyFor]

/-- An unmasked occurrence is a park cause where its severity is HOLD, and no other time (R61, R174). -/
theorem FaultUnit.take_holdPending {u : FaultUnit} {o : Occurrence} (h : (u.policyFor o.kind).masked = false) :
    (u.take o).holdPending = true ↔ u.holdPending = true ∨ (u.policyFor o.kind).severity = .hold := by
  rw [FaultUnit.holdPending_iff, FaultUnit.holdPending_iff]
  simp only [FaultUnit.take_policyFor]
  have hpending (k : FaultKind) : (u.take o).pending.getLsbD k.place.val = true
      ↔ u.pending.getLsbD k.place.val = true ∨ k = o.kind := by
    have hor := Bool.eq_iff_iff.mp (FaultUnit.take_isPending h k)
    rwa [Bool.or_eq_true, decide_eq_true_eq] at hor
  constructor
  · rintro ⟨k, hk, hhold⟩
    rcases (hpending k).mp hk with hk | rfl
    · exact .inl ⟨k, hk, hhold⟩
    · exact .inr hhold
  · rintro (⟨k, hk, hhold⟩ | hhold)
    · exact ⟨k, (hpending k).mpr (.inl hk), hhold⟩
    · exact ⟨o.kind, (hpending _).mpr (.inr rfl), hhold⟩

theorem State.parked_of_take {o : Occurrence} :
    State.parked { s with faults := s.faults.take o }
      = (!s.running || (s.travel.lost || s.control.holdInput || (s.faults.take o).holdPending)) := rfl

/-- An unmasked occurrence of a severity other than HOLD parks nothing (R61, R174). -/
theorem State.note_of_not_hold {o : Occurrence} (h : (s.faults.policyFor o.kind).masked = false)
    (hseverity : (s.faults.policyFor o.kind).severity ≠ .hold) :
    s.note o = { s with faults := s.faults.take o } := by
  have hhold : (s.faults.take o).holdPending = s.faults.holdPending := by
    rw [Bool.eq_iff_iff, FaultUnit.take_holdPending h]
    exact or_iff_left hseverity
  have hparked : State.parked { s with faults := s.faults.take o } = s.parked := by
    rw [State.parked_of_take, hhold]
    rfl
  refine if_neg fun hc => ?_
  rw [hparked] at hc
  cases hs : s.parked <;> simp [hs] at hc

theorem State.note_of_hold {o : Occurrence} (h : (s.faults.policyFor o.kind).masked = false)
    (hseverity : (s.faults.policyFor o.kind).severity = .hold) :
    s.note o = if s.parked = false ∧ s.role = some .sort then
      { s with faults := s.faults.take o, sort := s.sort.parkBegin } else { s with faults := s.faults.take o } := by
  have hparked : State.parked { s with faults := s.faults.take o } = true := by
    rw [State.parked_of_take, (FaultUnit.take_holdPending h).mpr (.inr hseverity)]
    simp
  have hrole : State.role { s with faults := s.faults.take o } = s.role := rfl
  unfold State.note
  rw [followParkBegin_of hparked, hrole]
  split <;> rfl

theorem FaultUnit.requestsHalt_iff {u : FaultUnit} {k : FaultKind} : u.requestsHalt k = true
    ↔ (u.policyFor k).masked = false ∧ (u.policyFor k).severity = .halt := by
  simp [FaultUnit.requestsHalt]

theorem State.occur_of_not_halt {o : Occurrence} (h : (s.faults.policyFor o.kind).severity ≠ .halt) :
    s.occur o = s.note o := if_neg fun hc => h (FaultUnit.requestsHalt_iff.mp hc).2

theorem State.occur_of_halt {o : Occurrence} (h : (s.faults.policyFor o.kind).masked = false)
    (hseverity : (s.faults.policyFor o.kind).severity = .halt) :
    s.occur o = State.takeHaltRequest { s with faults := s.faults.take o } o.kind := by
  have hnote : s.note o = { s with faults := s.faults.take o } := State.note_of_not_hold h (by simp [hseverity])
  exact (if_pos (FaultUnit.requestsHalt_iff.mpr ⟨h, hseverity⟩)).trans (by rw [hnote])

theorem State.takeHaltRequest_of_nothing {k : FaultKind} (h : s.running = false ∨ s.ownHaltOut = true) :
    s.takeHaltRequest k = s := by
  refine if_neg fun hc => ?_
  rw [Bool.and_eq_true, Bool.not_eq_true'] at hc
  obtain ⟨hrunning, hown⟩ := hc
  rcases h with h | h
  · exact Bool.false_ne_true (h.symm.trans hrunning)
  · exact Bool.false_ne_true (hown.symm.trans h)

theorem State.takeHaltRequest_of_taken {k : FaultKind} (hrunning : s.running = true) (hown : s.ownHaltOut = false) :
    s.takeHaltRequest k = s.raiseOwnHalt k.number (s.faults.first.bind (·.tag)) :=
  if_pos (by rw [hrunning, hown]; rfl)

/-- Settles O37: the fault unit's part, and then each severity's. -/
theorem occurrences : Obligations.Occurrences := by
  refine ⟨fun u o => ⟨fun k => ?_, u.take_policy o, fun h => ?_, fun h => ⟨u.take_isPending h, fun hfirst => ?_,
    fun x hfirst => ?_⟩⟩, fun s o h => State.occur_of_masked h, fun s o h => ?_⟩
  · rw [FaultUnit.take_counts_get]
    exact if_congr (FaultKind.place_inj.trans eq_comm) rfl rfl
  · rw [FaultUnit.take_of_masked h]
    exact ⟨rfl, rfl, rfl⟩
  · rw [FaultUnit.take_of_unmasked h]
    simp [hfirst]
  · rw [FaultUnit.take_of_unmasked h]
    simp [hfirst]
  · refine ⟨fun hnote => ?_, fun hhold => ?_, fun hhalt hnot => ?_, fun hhalt hrunning hout hactive hroom hqueued => ?_⟩
    · rw [State.occur_of_not_halt (by simp [hnote]), State.note_of_not_hold h (by simp [hnote])]
    · rw [State.occur_of_not_halt (by simp [hhold]), State.note_of_hold h hhold]
      rfl
    · rw [State.occur_of_halt h hhalt]
      exact State.takeHaltRequest_of_nothing hnot
    · have htag : (s.faults.take o).first.bind (·.tag) = (s.faults.first.getD o).tag := by
        rw [FaultUnit.take_of_unmasked h]
        cases s.faults.first <;> rfl
      intro tag
      have hraised : s.occur o
          = State.raiseOwnHalt { s with faults := s.faults.take o } o.kind.number tag :=
        (State.occur_of_halt h hhalt).trans
          ((State.takeHaltRequest_of_taken (by exact hrunning) (by exact hout)).trans (congrArg _ htag))
      rw [hraised]
      exact State.raiseOwnHalt_of_none (by exact hactive) (by exact hroom) (by exact hqueued)

end Sys2Proof.Machine
end

section
/-! PROOFS. Frames received: discards, HALT, RESUME and PRESENT from a peer, and frames with the own address. -/

namespace Sys2Proof.Machine

open Sys2Proof

variable {s t u : State}

/-! ### What occurrences leave of the halt, the queue and the map -/

/-- The station after occurrences: its halt set, queue and map are as they were, or an occurrence has raised the own
halt, which is announced (R65, R173, R176). -/
structure Told (s t : State) : Prop where
  quiet : Quiet s t
  parked : s.parked = true → t.parked = true
  raised_or_kept : (t.control = s.control ∧ t.port = s.port ∧ t.feed = s.feed)
    ∨ (s.ownHaltOut = false ∧ t.ownHaltOut = true ∧ t.control.queued ≠ none
        ∧ t.port.queue.length ≤ s.port.queue.length + 1)

theorem State.ownHaltOut_of_same (hcontrol : t.control = s.control) (himage : t.image = s.image) :
    t.ownHaltOut = s.ownHaltOut := by
  rw [State.ownHaltOut, State.halted, hcontrol, himage]
  rfl

theorem Told.refl (s : State) : Told s s := ⟨Quiet.refl s, id, .inl ⟨rfl, rfl, rfl⟩⟩

theorem Told.trans (h : Told s t) (h' : Told t u) : Told s u := by
  refine ⟨h.quiet.trans h'.quiet, h'.parked ∘ h.parked, ?_⟩
  have hout (hcontrol : t.control = s.control) := State.ownHaltOut_of_same hcontrol h.quiet.image
  have hout' (hcontrol : u.control = t.control) := State.ownHaltOut_of_same hcontrol h'.quiet.image
  rcases h.raised_or_kept with ⟨hc, hp, hf⟩ | ⟨hfalse, htrue, hqueued, hlength⟩ <;>
    rcases h'.raised_or_kept with ⟨hc', hp', hf'⟩ | ⟨hfalse', htrue', hqueued', hlength'⟩
  · exact .inl ⟨hc'.trans hc, hp'.trans hp, hf'.trans hf⟩
  · exact .inr ⟨(hout hc).symm.trans hfalse', htrue', hqueued', hp ▸ hlength'⟩
  · exact .inr ⟨hfalse, (hout' hc').trans htrue, hc' ▸ hqueued, hp' ▸ hlength⟩
  · exact absurd (htrue.symm.trans hfalse') (by simp)

theorem FaultUnit.holdPending_of_take {v : FaultUnit} {o : Occurrence} (h : v.holdPending = true) :
    (v.take o).holdPending = true := by
  cases hmasked : (v.policyFor o.kind).masked with
  | true => rw [FaultUnit.take_of_masked hmasked]; exact h
  | false => exact (FaultUnit.take_holdPending hmasked).mpr (.inl h)

/-- An occurrence ends no park (R61). -/
theorem State.parked_take {o : Occurrence} (h : s.parked = true) :
    State.parked { s with faults := s.faults.take o } = true := by
  rw [State.parked_of_take]
  cases hhold : s.faults.holdPending with
  | true => simp [FaultUnit.holdPending_of_take hhold]
  | false =>
    simp only [State.parked, State.parkCause, hhold, Bool.or_false] at h
    rw [← Bool.or_assoc, h, Bool.true_or]

theorem State.note_control (o : Occurrence) : (s.note o).control = s.control := by
  unfold State.note followParkBegin
  split <;> rfl

theorem State.note_port (o : Occurrence) : (s.note o).port = s.port := by
  unfold State.note followParkBegin
  split <;> rfl

theorem State.note_feed (o : Occurrence) : (s.note o).feed = s.feed := by
  unfold State.note followParkBegin
  split <;> rfl

theorem State.parked_of_same (hfaults : t.faults = s.faults) (hcontrol : t.control.state = s.control.state)
    (hhold : t.control.holdInput = s.control.holdInput) (htravel : t.travel = s.travel) : t.parked = s.parked := by
  simp [State.parked, State.parkCause, State.running, hfaults, hcontrol, hhold, htravel]

/-- What has taken one occurrence or none has ended no park (R61, R174). -/
theorem Quiet.parked (h : Quiet s t) (hfaults : t.faults = s.faults ∨ ∃ o, t.faults = s.faults.take o)
    (hparked : s.parked = true) : t.parked = true := by
  rcases hfaults with hfaults | ⟨o, hfaults⟩
  · exact (State.parked_of_same hfaults h.state h.holdInput h.travel).trans hparked
  · have hsame : t.parked = State.parked { s with faults := s.faults.take o } :=
      State.parked_of_same hfaults h.state h.holdInput h.travel
    exact hsame.trans (State.parked_take hparked)

theorem State.note_parked {o : Occurrence} (h : s.parked = true) : (s.note o).parked = true := by
  exact (s.note_quiet o).parked (.inr ⟨o, s.note_faults o⟩) h

theorem State.note_told (o : Occurrence) : Told s (s.note o) :=
  ⟨s.note_quiet o, State.note_parked, .inl ⟨s.note_control o, s.note_port o, s.note_feed o⟩⟩

theorem putFrame_length_le (q : List Slot) (x : Slot) : (putFrame q x).1.length ≤ q.length + 1 := by
  rcases putFrame_cases q x with ⟨-, e⟩ | ⟨l, y, r, -, hq, -, -, e⟩ | ⟨-, e⟩ <;> rw [e]
  · exact (insertSlot_perm x q).length_eq.le
  · have hlength := (insertSlot_perm x (l ++ r)).length_eq
    have := congrArg List.length hq
    simp only [List.length_cons, List.length_append] at hlength this ⊢
    omega
  · exact Nat.le_succ _

theorem State.addQuiet_control (n : Notice) (age : Nat) : (s.addQuiet n age).control = s.control := by
  have h := s.put_control n age
  unfold State.addQuiet
  split
  next s' e => rw [e] at h; exact h
  next s' y e => rw [e] at h; exact (State.note_control _).trans h

theorem State.addQuiet_queue_le (n : Notice) (age : Nat) :
    (s.addQuiet n age).port.queue.length ≤ s.port.queue.length + 1 := by
  have h : (s.put n age).1.port.queue.length ≤ s.port.queue.length + 1 := by
    rw [State.put_port]
    split
    · exact putFrame_length_le _ _
    · exact Nat.le_succ _
  unfold State.addQuiet
  split
  next s' e => rw [e] at h; exact h
  next s' y e => rw [e] at h; rw [State.note_port]; exact h

/-- The own halt, raised, is outstanding and is announced (R65, R67). -/
theorem State.raiseOwnHalt_raised {r : Nat} {tag : Option Tag} (haddress : isAddress (Image.address s.image)) :
    (s.raiseOwnHalt r tag).ownHaltOut = true ∧ (s.raiseOwnHalt r tag).control.queued ≠ none
      ∧ (s.raiseOwnHalt r tag).port.queue.length ≤ s.port.queue.length + 1 := by
  have himage : (s.raiseOwnHalt r tag).image = s.image := (s.raiseOwnHalt_quiet r tag).image
  have hlt : Image.address s.image < 16 := by have := haddress.2; omega
  have hbit (c : StationControl) (h : c.haltSet = (withHalt s.control (Image.address s.image) r tag).haltSet) :
      c.haltSet.getLsbD (Image.address s.image) = true := by
    have hadded : (withHalt s.control (Image.address s.image) r tag).haltSet
        = s.control.haltSet ||| addressBit (Image.address s.image) := rfl
    rw [h, hadded, BitVec.getLsbD_or, addressBit_getLsbD, decide_eq_true hlt, decide_eq_true rfl]
    exact Bool.or_true _
  rw [State.ownHaltOut, State.halted, himage]
  cases hqueued : s.control.queued with
  | none =>
    have h : s.raiseOwnHalt r tag = State.addQuiet { s with
        control := { withHalt s.control (Image.address s.image) r tag with
          ownHalt := some ⟨r, tag⟩, queued := some .halt } } (.halt r tag) 0 :=
      State.announceQuiet_of_none (by exact hqueued)
    rw [h, State.addQuiet_control]
    exact ⟨hbit _ rfl, Option.some_ne_none _, State.addQuiet_queue_le _ _⟩
  | some q =>
    rw [State.raiseOwnHalt_of_some hqueued]
    refine ⟨hbit _ rfl, ?_, Nat.le_succ _⟩
    show s.control.queued ≠ none
    rw [hqueued]
    exact Option.some_ne_none _

theorem State.takeHaltRequest_told {k : FaultKind} (haddress : isAddress (Image.address s.image)) :
    Told s (s.takeHaltRequest k) := by
  refine ⟨s.takeHaltRequest_quiet k, (s.takeHaltRequest_quiet k).parked ?_, ?_⟩
  · unfold State.takeHaltRequest
    split
    · exact s.raiseOwnHalt_faults _ _
    · exact .inl rfl
  · unfold State.takeHaltRequest
    split
    next h =>
      rw [Bool.and_eq_true, Bool.not_eq_true'] at h
      exact .inr ⟨h.2, State.raiseOwnHalt_raised haddress⟩
    next => exact .inl ⟨rfl, rfl, rfl⟩

theorem State.occur_told {o : Occurrence} (haddress : isAddress (Image.address s.image)) : Told s (s.occur o) := by
  have hnoted : isAddress (Image.address (s.note o).image) := (s.note_quiet o).image ▸ haddress
  unfold State.occur
  split
  · exact (s.note_told o).trans (State.takeHaltRequest_told hnoted)
  · exact s.note_told o

/-- What a command leaves after occurrences needs the drop test only where it has emptied the halt set (R134). -/
theorem reviewDrop_of_told {v : State} (h : Told s t) (hparked : u.parked = s.parked)
    (hset : u.control.haltSet = s.control.haltSet) (hmap : u.feed.map = s.feed.map) (hparked' : v.parked = t.parked)
    (hset' : v.control.haltSet = t.control.haltSet) (hmap' : v.feed.map = t.feed.map) : reviewDrop u v = v := by
  rcases h.raised_or_kept with ⟨hc, -, hf⟩ | ⟨-, hout, -, -⟩
  · have hstay : u.parked = true → v.parked = true := fun hu => hparked'.trans (h.parked (hparked ▸ hu))
    refine if_neg ?_
    rw [hmap', hf, hmap, State.noHalt, State.noHalt, hset, hset', hc]
    cases hu : u.parked with
    | false => simp
    | true => simp [hstay hu]
  · exact reviewDrop_of_halted (by rw [hset']; exact haltSet_ne_zero_of_bit hout)

/-! ### Discards (R32, R46, R50) -/

theorem State.discardFault_told {failed : Bool} {cause ident : Nat} (haddress : isAddress (Image.address s.image)) :
    Told s (s.discardFault failed cause ident) := by
  unfold State.discardFault
  split
  · exact Told.refl s
  · exact State.occur_told haddress

theorem reviewDrop_discard {failed : Bool} {cause ident : Nat} (haddress : isAddress (Image.address s.image)) :
    reviewDrop s (s.waitIdle.discardFault failed cause ident) = s.waitIdle.discardFault failed cause ident :=
  reviewDrop_of_told (s := s.waitIdle) (State.discardFault_told haddress) rfl rfl rfl rfl rfl rfl

theorem exec_frameAbandoned_of_broken {bits : List Bool} {failed : Bool} {id : Option Byte} (hreading : s.reading failed)
    (hfollow : follow bits = .broken id) :
    exec (.frameAbandoned bits) s = .next (reviewDrop s (s.abandon failed id)) := by
  show execFrameAbandoned bits s = _
  rw [execFrameAbandoned, LinePort.reads_of_reading hreading, hfollow]

theorem exec_receivedFrameEnd_of_ended {bits : List Bool} {failed : Bool} {f : Frame} (hreading : s.reading failed)
    (hfollow : follow bits = .ended f) :
    exec (.receivedFrameEnd bits) s = .next (reviewDrop s (s.frameEnds failed f)) := by
  show execReceivedFrameEnd bits s = _
  rw [execReceivedFrameEnd, LinePort.reads_of_reading hreading, hfollow]

theorem State.frameEnds_of_discard {failed : Bool} {f : Frame} {cause : Nat} (h : judge f = .discard cause) :
    s.frameEnds failed f = s.waitIdle.discardFault failed cause f.ident.toNat := by
  rw [State.frameEnds, h]

/-- A data length that the kind does not allow gives no notice (R34, R46). -/
theorem noticeOf_of_wrong_length {code : Nat} {data : List Byte}
    (h : code = 1 ∧ data.length ≠ 1 ∧ data.length ≠ 3 ∨ code = 2 ∧ data.length ≠ 0 ∨ code = 3 ∧ data.length ≠ 3
      ∨ code = 4 ∧ data.length ≠ 8 ∨ code = 5 ∧ data.length ≠ 8 ∨ code = 6 ∧ data.length ≠ 7
      ∨ code = 7 ∧ data.length ≠ 4) : noticeOf code data = none := by
  rcases data with _ | ⟨_, _ | ⟨_, _ | ⟨_, _ | ⟨_, _ | ⟨_, _ | ⟨_, _ | ⟨_, _ | ⟨_, _ | ⟨_, _⟩⟩⟩⟩⟩⟩⟩⟩⟩ <;>
    rcases h with ⟨rfl, h⟩ | ⟨rfl, h⟩ | ⟨rfl, h⟩ | ⟨rfl, h⟩ | ⟨rfl, h⟩ | ⟨rfl, h⟩ | ⟨rfl, h⟩ <;>
    first | rfl | simp at h

section
variable {f : Frame}

theorem judge_of_wrong_check (h : f.check ≠ f.expectedCheck) : judge f = .discard 1 := if_pos h

theorem judge_of_wrong_kind (h : f.check = f.expectedCheck) (hkind : f.ident.toNat / 16 = 0 ∨ 8 ≤ f.ident.toNat / 16) :
    judge f = .discard 3 := (if_neg (not_not.mpr h)).trans (if_pos hkind)

theorem judge_of_no_sender (h : f.check = f.expectedCheck)
    (hkind : ¬ (f.ident.toNat / 16 = 0 ∨ 8 ≤ f.ident.toNat / 16)) (hsender : f.ident.toNat % 16 = 0) :
    judge f = .discard 4 := (if_neg (not_not.mpr h)).trans ((if_neg hkind).trans (if_pos hsender))

theorem judge_of_no_notice (h : f.check = f.expectedCheck)
    (hkind : ¬ (f.ident.toNat / 16 = 0 ∨ 8 ≤ f.ident.toNat / 16)) (hsender : f.ident.toNat % 16 ≠ 0)
    (hnotice : noticeOf (f.ident.toNat / 16) f.data = none) : judge f = .discard 5 := by
  refine (if_neg (not_not.mpr h)).trans ((if_neg hkind).trans ((if_neg hsender).trans ?_))
  rw [hnotice]

end

/-- Settles O30: the checks of R46 in their order. -/
theorem frameDiscards : Obligations.FrameDiscards := by
  intro s bits failed hreading haddress waits discarded
  have habandoned (id : Option Byte) (h : follow bits = .broken id) :
      exec (.frameAbandoned bits) s = discarded 2 ((id.map BitVec.toNat).getD 0) := by
    rw [exec_frameAbandoned_of_broken hreading h, State.abandon, reviewDrop_discard haddress]
    rfl
  refine ⟨fun id => habandoned (some id), habandoned none, fun id data check hfollow => ?_⟩
  intro right kind
  have hexec (cause : Nat) (h : judge ⟨id, data, check⟩ = .discard cause) :
      exec (.receivedFrameEnd bits) s = discarded cause id.toNat := by
    rw [exec_receivedFrameEnd_of_ended hreading hfollow, State.frameEnds_of_discard h, reviewDrop_discard haddress]
    rfl
  refine ⟨fun h => hexec 1 (judge_of_wrong_check h), fun h hkind => hexec 3 (judge_of_wrong_kind h hkind),
    fun h hlow hhigh hsender => hexec 4 (judge_of_no_sender h ?_ hsender),
    fun h hsender hlength => hexec 5 (judge_of_no_notice h ?_ hsender (noticeOf_of_wrong_length hlength))⟩
  · show ¬ (kind = 0 ∨ 8 ≤ kind)
    omega
  · show ¬ (kind = 0 ∨ 8 ≤ kind)
    omega

/-! ### A notice from a peer (R49, R58, R62) -/

theorem carries.ident {bits : List Bool} {a : Nat} {n : Notice} (h : carries bits a n) : (n.code * 16 + a) % 16 = a := by
  obtain ⟨⟨-, ha⟩, -⟩ := h
  omega

theorem exec_receivedFrameEnd_of_peer {bits : List Bool} {failed : Bool} {a : Nat} {n : Notice}
    (hreading : s.reading failed) (hline : s.onLine = true) (hpeer : a ≠ Image.address s.image) (hbits : carries bits a n) :
    exec (.receivedFrameEnd bits) s = .next (reviewDrop s (s.waitIdle.handNotice a (n.code * 16 + a) n)) := by
  have hreceive : s.waitIdle.receive (n.code * 16 + a) n = s.waitIdle.handNotice a (n.code * 16 + a) n := by
    rw [State.receive, hbits.ident]
    exact (if_neg hpeer).trans (if_pos hline)
  rw [exec_receivedFrameEnd_of_carries hreading hbits, hreceive]

theorem withHalt_haltSet_ne_zero {c : StationControl} {a r : Nat} {tag : Option Tag} (ha : isAddress a) :
    (withHalt c a r tag).haltSet ≠ 0 := State.haltSet_of_withHalt_ne_zero c ha

/-- With the park and the map as they were, the drop test follows exactly where the halt set has become empty (R134). -/
theorem reviewDrop_of_same_parked_map (hparked : s.parked = true → t.parked = true) (hmap : t.feed.map = s.feed.map) :
    reviewDrop s t = if s.control.haltSet ≠ 0 ∧ t.control.haltSet = 0 then t.evalDrop else t := by
  have hpark : (s.parked && !t.parked) = false := by
    cases hs : s.parked with
    | false => rfl
    | true => rw [hparked hs]; rfl
  have hset (v : State) : v.noHalt = true ↔ v.control.haltSet = 0 := by simp [State.noHalt]
  rw [reviewDrop, hpark, hmap]
  refine if_congr ?_ rfl rfl
  simp [Bool.eq_false_iff, hset]

/-- Settles O31: a HALT adds to the set, a RESUME takes from it. -/
theorem peerHaltAndResume : Obligations.PeerHaltAndResume := by
  intro s bits failed a hreading hline hpeer haddress waits
  refine ⟨fun r t hbits hr => ?_, fun r t hbits hr => ?_, fun hbits => ?_⟩
  · obtain ⟨ha, -⟩ := id hbits
    rw [exec_receivedFrameEnd_of_peer hreading hline hpeer hbits]
    have htake : s.waitIdle.handNotice a ((Notice.halt r t).code * 16 + a) (.halt r t)
        = { waits with control := withHalt s.control a r t } := if_pos hr
    rw [htake, reviewDrop_of_halted (withHalt_haltSet_ne_zero ha)]
  · rw [exec_receivedFrameEnd_of_peer hreading hline hpeer hbits]
    have htake : s.waitIdle.handNotice a ((Notice.halt r t).code * 16 + a) (.halt r t)
        = waits.occur (peerFault 6 (16 + a) none) := if_neg (Nat.not_le.mpr hr)
    rw [htake, reviewDrop_of_told (s := waits) (u := s) (State.occur_told haddress) rfl rfl rfl rfl rfl rfl]
    rfl
  · rw [exec_receivedFrameEnd_of_peer hreading hline hpeer hbits]
    exact congrArg _ (reviewDrop_of_same_parked_map (s := s) (t := { waits with control := withoutHalt s.control a })
      id rfl)

/-! ### A PRESENT from a peer (R58) -/

/-- PEER occurrences with the causes given, in their order (R58, R60). -/
def State.tellPeer (s : State) (ident : Nat) (causes : List Nat) : State :=
  causes.foldl (fun u cause => u.occur (peerFault cause ident none)) s

theorem State.tellPeer_append (ident : Nat) (l l' : List Nat) :
    s.tellPeer ident (l ++ l') = (s.tellPeer ident l).tellPeer ident l' := List.foldl_append

theorem State.tellPeer_told {ident : Nat} (haddress : isAddress (Image.address s.image)) (causes : List Nat) :
    Told s (s.tellPeer ident causes) := by
  induction causes generalizing s with
  | nil => exact Told.refl s
  | cons cause rest ih =>
    have h : Told s (s.occur (peerFault cause ident none)) := State.occur_told haddress
    exact h.trans (ih (h.quiet.image ▸ haddress))

theorem State.peerIf_eq_tellPeer (b : Bool) (cause ident : Nat) :
    s.peerIf b cause ident = s.tellPeer ident (if b then [cause] else []) := by cases b <;> rfl

/-- What a PRESENT differs in from this station, by the causes of R58 in their order. -/
def presentCauses (im : Image) (r n sum : Nat) (restarted : Bool) : List Nat :=
  (if n = Image.byte im 0x002 then [] else [1]) ++ (if sum = Image.profileSum im then [] else [2])
    ++ (if restarted then [3] else []) ++ (if 1 ≤ r ∧ r ≤ 3 then [] else [7])

theorem State.takePresent_eq (haddress : isAddress (Image.address s.image)) (a ident r n sum : Nat)
    (restarted defend : Bool) :
    s.takePresent a ident r n sum restarted defend
      = State.resendHalt (if defend then s.tellPeer ident (presentCauses s.image r n sum restarted)
          else (s.tellPeer ident (presentCauses s.image r n sum restarted)).unhalt a) := by
  have hif (u : State) {b : Bool} {p : Prop} [Decidable p] (hb : b = true ↔ ¬ p) (cause : Nat) :
      u.peerIf b cause ident = u.tellPeer ident (if p then [] else [cause]) := by
    rw [State.peerIf_eq_tellPeer]
    by_cases h : p
    · rw [if_pos h, if_neg fun hb' => hb.mp hb' h]
    · rw [if_neg h, if_pos (hb.mpr h)]
  have hlanes (u : State) : u.peerIf (n != Image.laneCount s.image) 1 ident
      = u.tellPeer ident (if n = Image.byte s.image 0x002 then [] else [1]) := hif u bne_iff_ne 1
  have hsum (u : State) : u.peerIf (sum != Image.profileSum s.image) 2 ident
      = u.tellPeer ident (if sum = Image.profileSum s.image then [] else [2]) := hif u bne_iff_ne 2
  have hrole (u : State) : u.peerIf (decide (r < 1) || decide (3 < r)) 7 ident
      = u.tellPeer ident (if 1 ≤ r ∧ r ≤ 3 then [] else [7]) := by
    refine hif u ?_ 7
    rw [Bool.or_eq_true, decide_eq_true_eq, decide_eq_true_eq]
    omega
  have himage := (State.tellPeer_told (ident := ident) haddress
    (if n = Image.byte s.image 0x002 then [] else [1])).quiet.image
  unfold State.takePresent
  simp only [hlanes, himage, hsum, hrole, State.peerIf_eq_tellPeer, presentCauses, State.tellPeer_append]

theorem State.resendHalt_of_nothing (h : s.ownHaltOut = false ∨ s.control.queued ≠ none ∨ s.control.owed ≠ none) :
    s.resendHalt = s := by
  refine if_neg fun hc => ?_
  simp only [Bool.and_eq_true, Option.isNone_iff_eq_none] at hc
  obtain ⟨⟨hout, hqueued⟩, howed⟩ := hc
  rcases h with h | h | h
  · exact Bool.false_ne_true (h.symm.trans hout)
  · exact h hqueued
  · exact h howed

/-- The own halt sent again, with its reason and tag (R57, R58, R67). -/
theorem State.resendHalt_of_out {reason : Nat} {tag : Option Tag} (hout : s.ownHaltOut = true)
    (hqueued : s.control.queued = none) (howed : s.control.owed = none)
    (hown : s.control.ownHalt = some ⟨reason, tag⟩) (hactive : s.port.active = true) (hroom : s.port.queue.length < 8) :
    s.resendHalt = State.queued { s with control := { s.control with queued := some .halt } } (.halt reason tag) := by
  have hnotice : s.control.announcement .halt = .halt reason tag := by
    rw [StationControl.announcement, hown]
    rfl
  refine (if_pos (by rw [hout, hqueued, howed]; rfl)).trans ?_
  rw [State.announce_of_none hqueued, hnotice]
  exact State.add_eq_queued (by exact hactive) (by exact hroom)

/-- An address other than the own one leaves the own halt where it stands (R62). -/
theorem State.unhalt_ownHaltOut {a : Nat} (hpeer : a ≠ Image.address s.image) (haddress : isAddress (Image.address s.image)) :
    (s.unhalt a).ownHaltOut = s.ownHaltOut := by
  have hlt : Image.address s.image < 16 := by have := haddress.2; omega
  show (s.control.haltSet &&& ~~~ addressBit a).getLsbD (Image.address s.image) = s.control.haltSet.getLsbD _
  rw [BitVec.getLsbD_and, BitVec.getLsbD_not, addressBit_getLsbD, decide_eq_true hlt, decide_eq_false hpeer]
  simp

/-- Settles O32: the differences told, the peer's address taken out, and then the own halt. -/
theorem peerPresent : Obligations.PeerPresent := by
  intro s bits failed a r n sum restarted defend hreading hline hpeer haddress hbits waits causes told t ownOut
  have htold : Told waits told := State.tellPeer_told (s := waits) haddress causes
  have hexec : exec (.receivedFrameEnd bits) s = .next (reviewDrop s t.resendHalt) := by
    rw [exec_receivedFrameEnd_of_peer hreading hline hpeer hbits]
    refine congrArg (fun v => Host.Outcome.next (reviewDrop s v)) ?_
    exact State.takePresent_eq (s := waits) haddress a _ r n sum restarted defend
  have himage : told.image = s.image := htold.quiet.image
  have hfields : t.control.queued = told.control.queued ∧ t.control.owed = told.control.owed
      ∧ t.control.ownHalt = told.control.ownHalt ∧ t.port = told.port ∧ t.feed = told.feed ∧ t.parked = told.parked
      ∧ t.ownHaltOut = told.ownHaltOut := by
    cases hd : defend with
    | true => simp [t, hd]
    | false =>
      have hout : (told.unhalt a).ownHaltOut = told.ownHaltOut :=
        State.unhalt_ownHaltOut (himage ▸ hpeer) (himage ▸ haddress)
      have ht : t = told.unhalt a := by simp only [t, hd]; rfl
      rw [ht]
      exact ⟨rfl, rfl, rfl, rfl, rfl, rfl, hout⟩
  obtain ⟨hqueued, howed, hown, hport, hfeed, hparked, hout⟩ := hfields
  have houtSelf : waits.ownHaltOut = ownOut := rfl
  have hset : t.ownHaltOut = true → t.control.haltSet ≠ 0 := fun h => haltSet_ne_zero_of_bit h
  refine ⟨fun hfalse => ?_, fun htrue hbusy => ?_, fun reason tag htrue hnone hnone' hreason hroom => ?_⟩
  · rw [hexec]
    rcases htold.raised_or_kept with ⟨hc, hp, hf⟩ | ⟨-, hraised, hannounced, -⟩
    · have hquiet : t.resendHalt = t :=
        State.resendHalt_of_nothing (.inl (hout.trans ((State.ownHaltOut_of_same hc himage).trans hfalse)))
      rw [hquiet]
      exact congrArg _ (reviewDrop_of_same_parked_map (fun h => hparked.trans (htold.parked h)) (hfeed.trans hf ▸ rfl))
    · rw [State.resendHalt_of_nothing (.inr (.inl (hqueued ▸ hannounced)))]
      have hne := hset (hout.trans hraised)
      rw [reviewDrop_of_halted hne, if_neg fun h => hne h.2]
  all_goals
    rcases htold.raised_or_kept with ⟨hc, hp, hf⟩ | ⟨hfalse, -⟩
    swap
    · exact absurd (hfalse.symm.trans (houtSelf.trans htrue)) (by simp)
  · have hbusy' : t.control.queued ≠ none ∨ t.control.owed ≠ none := by rw [hqueued, howed, hc]; exact hbusy
    have hout' : t.ownHaltOut = true := hout.trans ((State.ownHaltOut_of_same hc himage).trans htrue)
    rw [hexec, State.resendHalt_of_nothing (.inr hbusy'), reviewDrop_of_halted (hset hout')]
  · have hout' : t.ownHaltOut = true := hout.trans ((State.ownHaltOut_of_same hc himage).trans htrue)
    obtain ⟨hactive, -⟩ := hreading
    have hresend := State.resendHalt_of_out (s := t) hout' (by rw [hqueued, hc]; exact hnone)
      (by rw [howed, hc]; exact hnone') (by rw [hown, hc]; exact hreason) (by rw [hport, hp]; exact hactive)
      (by rw [hport, hp]; exact hroom)
    rw [hexec, hresend, reviewDrop_of_halted]
    exact hset hout'

/-! ### A frame with the own address (R47, R55, R57) -/

theorem exec_receivedFrameEnd_of_own {bits : List Bool} {failed : Bool} {n : Notice} (hreading : s.reading failed)
    (hbits : carries bits (Image.address s.image) n) :
    exec (.receivedFrameEnd bits) s
      = .next (reviewDrop s (s.waitIdle.takeOwnAddress (n.code * 16 + Image.address s.image) n)) := by
  have hreceive : s.waitIdle.receive (n.code * 16 + Image.address s.image) n
      = s.waitIdle.takeOwnAddress (n.code * 16 + Image.address s.image) n := if_pos hbits.ident
  rw [exec_receivedFrameEnd_of_carries hreading hbits, hreceive]

/-- Nothing drops at a handshake other than READY (R134). -/
theorem State.evalDrop_of_not_ready (h : s.feed.handshake ≠ .ready) : s.evalDrop = s := if_neg fun hc => h hc.2

theorem reviewDrop_of_not_ready (h : t.feed.handshake ≠ .ready) : reviewDrop s t = t := by
  unfold reviewDrop
  rw [State.evalDrop_of_not_ready h, ite_self]

theorem State.defend_of_other {ident : Nat} {n : Notice} (h : ∀ r c u v, n ≠ .present r c u v false) :
    s.defend ident n = s.occur (peerFault 5 ident none) := by
  cases n with
  | present r c u v w =>
    cases w with
    | true => rfl
    | false => exact absurd rfl (h r c u v)
  | _ => rfl

theorem State.takeOwnAddress_of_joining {ident : Nat} {n : Notice} (h : s.control.state = .joining) :
    s.takeOwnAddress ident n = s.lockOut (.ownAddress n.code) := by rw [State.takeOwnAddress, h]

theorem State.takeOwnAddress_of_running {ident : Nat} {n : Notice} (h : s.control.state = .running) :
    s.takeOwnAddress ident n = s.defend ident n := by rw [State.takeOwnAddress, h]

theorem State.takeOwnAddress_of_configured {ident : Nat} {n : Notice} (h : s.control.state = .configured) :
    s.takeOwnAddress ident n = s := by rw [State.takeOwnAddress, h]

/-- Settles O33: by the station state that takes the frame. -/
theorem ownAddressFrame : Obligations.OwnAddressFrame := by
  intro s bits failed n hreading hbits waits
  obtain ⟨haddress, -⟩ := id hbits
  have hexec := exec_receivedFrameEnd_of_own hreading hbits
  refine ⟨fun hstate => ?_, fun hstate hkind => ?_, fun r c u v hstate hn _ hroom => ?_, fun hstate => ?_⟩
  · refine ⟨waits.lockOut (.ownAddress n.code), ?_, rfl, rfl, rfl, rfl, rfl, rfl, rfl, rfl, rfl, rfl, rfl⟩
    have hwaiting : (waits.lockOut (.ownAddress n.code)).feed.handshake ≠ .ready :=
      show Handshake.waiting ≠ .ready by decide
    rw [hexec, State.takeOwnAddress_of_joining (by exact hstate)]
    exact congrArg _ (reviewDrop_of_not_ready hwaiting)
  · rw [hexec, State.takeOwnAddress_of_running (by exact hstate), State.defend_of_other hkind,
      reviewDrop_of_told (s := s.waitIdle) (u := s) (State.occur_told haddress) rfl rfl rfl rfl rfl rfl]
    rfl
  · subst hn
    intro told reply ownOut
    have htold : Told waits told := State.occur_told haddress
    have hdefend : exec (.receivedFrameEnd bits) s
        = .next (reviewDrop s (told.resendHalt.add (told.resendHalt.presentNotice true) 0)) := by
      rw [hexec, State.takeOwnAddress_of_running (by exact hstate)]
      rfl
    have hreply : told.resendHalt.presentNotice true = reply := by
      have hquiet := htold.quiet.trans told.resendHalt_quiet
      rw [State.presentNotice, hquiet.image, hquiet.restartFlag]
      rfl
    have hactive : told.port.active = true := htold.quiet.active.trans hreading.1
    have hlength : told.port.queue.length < 8 := by
      rcases htold.raised_or_kept with ⟨-, hp, -⟩ | ⟨-, -, -, hle⟩
      · rw [hp]
        exact Nat.lt_succ_of_lt hroom
      · exact Nat.lt_of_le_of_lt hle (Nat.succ_lt_succ hroom)
    rw [hdefend, hreply]
    refine ⟨fun hquiet => ?_, fun reason tag htrue hnone hnone' hown => ?_⟩
    · have hresend : told.resendHalt = told := by
        refine State.resendHalt_of_nothing ?_
        rcases htold.raised_or_kept with ⟨hc, -, -⟩ | ⟨-, -, hannounced, -⟩
        · rw [State.ownHaltOut_of_same hc htold.quiet.image, hc]
          exact hquiet
        · exact .inr (.inl hannounced)
      rw [hresend, State.add_eq_queued hactive hlength]
      exact congrArg _ (reviewDrop_of_told (v := told.queued reply) htold rfl rfl rfl rfl rfl rfl)
    · rcases htold.raised_or_kept with ⟨hc, hp, hf⟩ | ⟨hfalse, -⟩
      · have hout : told.ownHaltOut = true := (State.ownHaltOut_of_same hc htold.quiet.image).trans htrue
        have hresend := State.resendHalt_of_out (s := told) hout (by rw [hc]; exact hnone) (by rw [hc]; exact hnone')
          (by rw [hc]; exact hown) hactive hlength
        have hlength' : (insertSlot ⟨.halt reason tag, 0, false⟩ told.port.queue).length < 8 := by
          rw [(insertSlot_perm _ _).length_eq, List.length_cons, hp]
          exact Nat.succ_lt_succ hroom
        rw [hresend, State.add_eq_queued (by exact hactive) (by exact hlength')]
        exact congrArg _ (reviewDrop_of_halted (haltSet_ne_zero_of_bit (by exact hout)))
      · exact absurd (hfalse.symm.trans htrue) (by simp)
  · rw [hexec, State.takeOwnAddress_of_configured (by exact hstate)]
    exact congrArg _ (reviewDrop_of_same (by rfl) (by rfl) (by rfl))

end Sys2Proof.Machine
end

section
/-! PROOFS. Encodings: the bits of a frame followed to its end, and the bytes of a notice and of a transaction read
back (R31 to R34, R181, R182, R188). -/

namespace Sys2Proof.Machine

open Sys2Proof

/-! ### The bits of a frame (R31, R32, R33) -/

theorem take_append_of_length {α : Type} {l r : List α} {n : Nat} (h : l.length = n) : (l ++ r).take n = l := by
  rw [← h, List.take_left]

theorem drop_append_of_length {α : Type} {l r : List α} {n : Nat} (h : l.length = n) : (l ++ r).drop n = r := by
  rw [← h, List.drop_left]

theorem bytesOf_flatMap (data : List Byte) (rest : List Bool) :
    bytesOf data.length (data.flatMap (fun b => bitsOf 8 b.toNat) ++ rest) = data := by
  induction data with
  | nil => rfl
  | cons b data ih =>
    rw [List.flatMap_cons, List.append_assoc, List.length_cons, bytesOf,
      take_append_of_length (bitsOf_length 8 _), drop_append_of_length (bitsOf_length 8 _),
      numberOf_bitsOf 8 _ b.isLt, ih, BitVec.ofNat_toNat, BitVec.setWidth_eq]

/-- A frame's body, part by part (R31). -/
theorem frameBody_eq (ident : Byte) (data : List Byte) : frameBody ident data
    = [false] ++ (bitsOf 8 ident.toNat ++ (bitsOf 4 data.length ++ (data.flatMap (fun b => bitsOf 8 b.toNat)
        ++ bitsOf 16 (frameCheck (coveredBits ident data)).toNat))) := by
  simp [frameBody, coveredBits]

theorem frameBody_drop_13 (ident : Byte) (data : List Byte) : (frameBody ident data).drop 13
    = data.flatMap (fun b => bitsOf 8 b.toNat) ++ bitsOf 16 (frameCheck (coveredBits ident data)).toNat := by
  have hfront : ([false] ++ (bitsOf 8 ident.toNat ++ bitsOf 4 data.length)).length = 13 := by simp
  rw [frameBody_eq, ← List.append_assoc (bitsOf 8 _), ← List.append_assoc [false], drop_append_of_length hfront]

theorem announcedLength_frameBody (ident : Byte) {data : List Byte} (h : data.length ≤ 8) :
    announcedLength (frameBody ident data) = data.length := by
  have hfront : ([false] ++ bitsOf 8 ident.toNat).length = 9 := by simp
  rw [announcedLength, frameBody_eq, ← List.append_assoc [false], drop_append_of_length hfront,
    take_append_of_length (bitsOf_length 4 _), numberOf_bitsOf 4 _ (by omega)]

/-- The length field is read from the frame's first 13 bits. -/
theorem announcedLength_append {got l : List Bool} (h : 13 ≤ got.length) :
    announcedLength (got ++ l) = announcedLength got := by
  rw [announcedLength, List.drop_append_of_le_length (by omega), List.take_append_of_le_length, announcedLength]
  rw [List.length_drop]
  omega

theorem frameRead_frameBody (ident : Byte) {data : List Byte} (h : data.length ≤ 8) :
    frameRead (frameBody ident data) = ⟨ident, data, frameCheck (coveredBits ident data)⟩ := by
  have hident : ((frameBody ident data).drop 1).take 8 = bitsOf 8 ident.toNat := by
    rw [frameBody_eq, drop_append_of_length (by rfl), take_append_of_length (bitsOf_length 8 _)]
  have hdata : (data.flatMap fun b => bitsOf 8 b.toNat).length = 8 * data.length := by
    have hcovered := coveredBits_length ident data
    rw [coveredBits, List.length_append, List.length_append, bitsOf_length, bitsOf_length] at hcovered
    omega
  have hcheck : (frameBody ident data).drop (13 + 8 * data.length)
      = bitsOf 16 (frameCheck (coveredBits ident data)).toNat := by
    rw [← List.drop_drop, frameBody_drop_13, drop_append_of_length hdata]
  rw [frameRead, announcedLength_frameBody ident h, hident, frameBody_drop_13, bytesOf_flatMap, hcheck,
    numberOf_bitsOf 8 _ ident.isLt, numberOf_bitsOf 16 _ (BitVec.isLt _)]
  simp

/-- The end run, whole, ends the frame. -/
theorem followEndRun_endRun (got : List Bool) : followEndRun got 8 endRun = .ended (frameRead got) := rfl

/-- From any place in the stuffed stretch, with fewer than five equal bits just read, the rest of the stretch and
the end run bring the receiver to the frame's end (R32). -/
theorem followStretch_stuffFrom (ident : Byte) {data : List Byte} (h : data.length ≤ 8) (l : List Bool) :
    ∀ (got : List Bool) (last : Bool) (run : Nat), got ++ l = frameBody ident data → run ≠ 5 →
      followStretch got last run ((stuffFrom last run l).map (·.1) ++ endRun)
        = .ended (frameRead (frameBody ident data)) := by
  have hlength := frameBody_length ident data
  induction l with
  | nil =>
    intro got last run hgot hrun
    rw [List.append_nil] at hgot
    have hexpected : got.length = bitsExpected got := by
      rw [bitsExpected, hgot, announcedLength_frameBody ident h, hlength, if_neg (by omega)]
    have hend : endRun = true :: endRun.tail := rfl
    rw [stuffFrom, List.map_nil, List.nil_append, hend, followStretch, if_neg hrun, if_pos hexpected, ← hend, hgot]
    rfl
  | cons b l ih =>
    intro got last run hgot hrun
    have hgot' : (got ++ [b]) ++ l = frameBody ident data := by rw [List.append_assoc]; exact hgot
    have htotal : got.length + (l.length + 1) = 29 + 8 * data.length := by
      rw [← hlength, ← hgot, List.length_append, List.length_cons]
    have hnot : got.length ≠ bitsExpected got := by
      rw [bitsExpected]
      split
      · omega
      · rw [← announcedLength_append (l := b :: l) (by omega), hgot, announcedLength_frameBody ident h]
        omega
    have hshort : ¬ ((got ++ [b]).length = 13 ∧ 8 < announcedLength (got ++ [b])) := by
      rintro ⟨h13, hlong⟩
      rw [← announcedLength_append (l := l) (by omega), hgot', announcedLength_frameBody ident h] at hlong
      omega
    have hstep (rest : List Bool) : followStretch got last run (b :: rest)
        = followStretch (got ++ [b]) b (if b = last then run + 1 else 1) rest := by
      rw [followStretch, if_neg hrun, if_neg hnot]
      exact if_neg hshort
    rw [stuffFrom]
    by_cases hfive : (if b = last then run + 1 else 1) = 5
    · simp only [hfive, if_true, List.map_cons, List.cons_append]
      rw [hstep, hfive, followStretch, if_pos rfl, if_neg (by simp)]
      exact ih _ _ _ hgot' (by omega)
    · simp only [hfive, if_false, List.map_cons, List.cons_append]
      rw [hstep]
      exact ih _ _ _ hgot' hfive

/-- Settles O59: by induction on the bits of the body, the stuff bits dropped as they come. -/
theorem frameRoundTrip : Obligations.FrameRoundTrip := by
  intro ident data h
  have hbody : frameBody ident data = false :: (frameBody ident data).tail := rfl
  have hstuffed : stuffedStretch ident data = (false, false) :: stuffFrom false 1 (frameBody ident data).tail := rfl
  rw [frameBits, hstuffed, List.map_cons, List.cons_append, follow, ← frameRead_frameBody ident h]
  exact followStretch_stuffFrom ident h _ [false] false 1 hbody.symm (by decide)

/-! ### The bytes of a notice (R34, R188) -/

theorem wordOf_wordBytes {n : Nat} (h : n < 65536) : wordOf (BitVec.ofNat 8 (n / 256)) (BitVec.ofNat 8 n) = n := by
  simp only [wordOf, BitVec.toNat_ofNat]
  omega

theorem bitsByte_read (b0 b1 b2 b3 b4 b5 b6 b7 : Bool) :
    let b := bitsByte b0 b1 b2 b3 b4 b5 b6 b7
    b.getLsbD 0 = b0 ∧ b.getLsbD 1 = b1 ∧ b.getLsbD 2 = b2 ∧ b.getLsbD 3 = b3 ∧ b.getLsbD 4 = b4 ∧ b.getLsbD 5 = b5
      ∧ b.getLsbD 6 = b6 ∧ b.getLsbD 7 = b7 := by
  revert b0 b1 b2 b3 b4 b5 b6 b7; decide

/-- A lane set and two flags in one byte (LOSS byte 2, HOLE byte 0). -/
theorem lanesAndFlags_read (m : LaneSet) (b6 b7 : Bool) :
    (m.setWidth 8 ||| bitsByte false false false false false false b6 b7).setWidth 4 = m
      ∧ (m.setWidth 8 ||| bitsByte false false false false false false b6 b7).getLsbD 6 = b6
      ∧ (m.setWidth 8 ||| bitsByte false false false false false false b6 b7).getLsbD 7 = b7 := by
  revert m b6 b7; decide

/-- A lane count and two flags in one byte (PRESENT byte 1). -/
theorem countAndFlags_read (c : Fin 8) (b6 b7 : Bool) :
    ((BitVec.ofNat 8 (c.val % 8) ||| bitsByte false false false false false false b6 b7).setWidth 3).toNat = c.val
      ∧ (BitVec.ofNat 8 (c.val % 8) ||| bitsByte false false false false false false b6 b7).getLsbD 6 = b6
      ∧ (BitVec.ofNat 8 (c.val % 8) ||| bitsByte false false false false false false b6 b7).getLsbD 7 = b7 := by
  revert c b6 b7; decide

/-- A lane set and a profile number in one byte (PASS and DROP byte 2). -/
theorem lanesAndProfile_read (m : LaneSet) (p : Fin 16) :
    ((m ++ BitVec.ofNat 4 p.val).setWidth 4).toNat = p.val ∧ (m ++ BitVec.ofNat 4 p.val).extractLsb' 4 4 = m := by
  revert m p; decide

theorem stampOf_bytes {flags : Byte} {st : Stamp} (hage : st.age < 1024) (hflag : flags.getLsbD 6 = st.stale) :
    stampOf flags (BitVec.ofNat 8 (st.age / 256)) (BitVec.ofNat 8 st.age) = st := by
  rw [stampOf, wordOf_wordBytes (by omega), Nat.mod_eq_of_lt hage, hflag]

theorem tagOf_bytes {t : Tag} (h : t.origin ≠ 0) : tagOf t.origin t.seq = some t := if_neg h

/-! The reader's equation for each kind and length (R34, R188). -/

theorem noticeOf_halt (r : Byte) : noticeOf 1 [r] = some (.halt r.toNat none) := rfl

theorem noticeOf_halt_tag (r o q : Byte) : noticeOf 1 [r, o, q] = some (.halt r.toNat (tagOf o q)) := rfl

theorem noticeOf_loss (o q b : Byte) :
    noticeOf 3 [o, q, b] = some (.loss ⟨o, q⟩ (b.setWidth 4) (b.getLsbD 7)) := rfl

theorem noticeOf_pass (o q pm f l1 l0 a1 a0 : Byte) : noticeOf 4 [o, q, pm, f, l1, l0, a1, a0] = some (.pass ⟨o, q⟩
    (pm.setWidth 4).toNat (pm.extractLsb' 4 4)
    ⟨f.getLsbD 0, f.getLsbD 1, f.getLsbD 2, f.getLsbD 3, f.getLsbD 4, f.getLsbD 5⟩ (wordOf l1 l0) (stampOf f a1 a0)) :=
  rfl

theorem noticeOf_drop (o q pm f l1 l0 a1 a0 : Byte) : noticeOf 5 [o, q, pm, f, l1, l0, a1, a0] = some (.drop ⟨o, q⟩
    (pm.setWidth 4).toNat (pm.extractLsb' 4 4) (f.getLsbD 0) (wordOf l1 l0) (stampOf f a1 a0)) := rfl

theorem noticeOf_hole (b h1 h0 l1 l0 a1 a0 : Byte) : noticeOf 6 [b, h1, h0, l1, l0, a1, a0]
    = some (.hole (b.setWidth 4) (wordOf h1 h0) (wordOf l1 l0) (stampOf b a1 a0)) := rfl

theorem noticeOf_present (r b s1 s0 : Byte) : noticeOf 7 [r, b, s1, s0]
    = some (.present r.toNat (b.setWidth 3).toNat (wordOf s1 s0) (b.getLsbD 6) (b.getLsbD 7)) := rfl

theorem noticeOf_bytes (n : Notice) (h : n.fits) : noticeOf n.code n.bytes = some n := by
  cases n with
  | halt r t =>
    obtain ⟨hr, ht⟩ := h
    have hread : (BitVec.ofNat 8 r).toNat = r := by rw [BitVec.toNat_ofNat]; omega
    cases t with
    | none => exact (noticeOf_halt _).trans (by rw [hread])
    | some t => exact (noticeOf_halt_tag _ _ _).trans (by rw [hread, tagOf_bytes (ht t rfl)])
  | resume => rfl
  | loss t m b =>
    obtain ⟨hm, -, hb⟩ := lanesAndFlags_read m false b
    exact (noticeOf_loss _ _ _).trans (by rw [hm, hb])
  | pass t p m f l st =>
    obtain ⟨hp, hl, hage⟩ := h
    obtain ⟨hprofile, hm⟩ := lanesAndProfile_read m ⟨p, hp⟩
    obtain ⟨h0, h1, h2, h3, h4, h5, h6, -⟩ :=
      bitsByte_read f.batchClose f.stray f.unverified f.short f.long f.partialSight st.stale false
    refine (noticeOf_pass _ _ _ _ _ _ _ _).trans ?_
    rw [wordOf_wordBytes hl, stampOf_bytes hage h6, hm, hprofile, h0, h1, h2, h3, h4, h5]
  | drop t p m b l st =>
    obtain ⟨hp, hl, hage⟩ := h
    obtain ⟨hprofile, hm⟩ := lanesAndProfile_read m ⟨p, hp⟩
    obtain ⟨h0, -, -, -, -, -, h6, -⟩ := bitsByte_read b false false false false false st.stale false
    refine (noticeOf_drop _ _ _ _ _ _ _ _).trans ?_
    rw [wordOf_wordBytes hl, stampOf_bytes hage h6, hm, hprofile, h0]
  | hole m a l st =>
    obtain ⟨ha, hl, hage⟩ := h
    obtain ⟨hm, hstale, -⟩ := lanesAndFlags_read m st.stale false
    exact (noticeOf_hole _ _ _ _ _ _ _).trans
      (by rw [wordOf_wordBytes hl, wordOf_wordBytes ha, stampOf_bytes hage hstale, hm])
  | present r c u a d =>
    obtain ⟨hr, hc, hu⟩ := h
    have hread : (BitVec.ofNat 8 r).toNat = r := by rw [BitVec.toNat_ofNat]; omega
    obtain ⟨hcount, ha, hd⟩ := countAndFlags_read ⟨c, hc⟩ a d
    exact (noticeOf_present _ _ _ _).trans (by rw [wordOf_wordBytes hu, hread, hcount, ha, hd])

/-! ### The bytes of a transaction (R181, R182, R188) -/

theorem wordArgument_bytes (w : BitVec 16) : wordArgument (w.extractLsb' 8 8) (w.setWidth 8) = w := by
  apply BitVec.eq_of_getLsbD_eq
  intro i hi
  rw [wordArgument, BitVec.getLsbD_append, BitVec.getLsbD_setWidth, BitVec.getLsbD_extractLsb']
  by_cases h : i < 8
  · simp [h]
  · have hlow : i - 8 < 8 := by omega
    have hback : 8 + (i - 8) = i := by omega
    simp [h, hlow, hback]

theorem decodeTransaction_unknown {code : Byte} (h : code ∉ commandCodes) (extra : List Byte) :
    decodeTransaction (code :: extra) = .unknownCommand code := by
  unfold decodeTransaction
  split <;> simp_all [commandCodes]

theorem decodeTransaction_writeConfig (hi lo count : Byte) (data : List Byte) :
    decodeTransaction (0x10#8 :: hi :: lo :: count :: data)
      = if count.toNat ≤ data.length then .writeConfig (wordArgument hi lo) (data.take count.toNat)
        else .transactionCutShort false := rfl

/-- A WRITE CONFIG is taken once all its data bytes are there (R182). -/
theorem decodeTransaction_writeConfig_data {offset : BitVec 16} {data : List Byte} (h : data.length ≤ 255)
    (sent : List Byte) :
    decodeTransaction (0x10#8 :: offset.extractLsb' 8 8 :: offset.setWidth 8 :: BitVec.ofNat 8 data.length :: sent)
      = if data.length ≤ sent.length then .writeConfig offset (sent.take data.length)
        else .transactionCutShort false := by
  have hcount : (BitVec.ofNat 8 data.length).toNat = data.length := by rw [BitVec.toNat_ofNat]; omega
  rw [decodeTransaction_writeConfig, hcount, wordArgument_bytes]

/-- The bytes of a well-formed command, whatever follows them, are taken as it (R181, R182). -/
theorem decodeTransaction_encoded {c : Instr} {bytes : List Byte} (hc : c.wellFormed = true)
    (hbytes : encodeTransaction c = some bytes) (hwhole : c ≠ .transactionCutShort false) (extra : List Byte) :
    decodeTransaction (bytes ++ extra) = c := by
  cases c with
  | ackFaults kinds =>
    cases hbytes
    exact congrArg Instr.ackFaults (wordArgument_bytes kinds)
  | readImage offset count =>
    cases hbytes
    exact congrArg (Instr.readImage · count) (wordArgument_bytes offset)
  | writeConfig offset data =>
    cases hbytes
    have hlength : data.length ≤ 255 := of_decide_eq_true hc
    refine (decodeTransaction_writeConfig_data hlength (data ++ extra)).trans ?_
    rw [if_pos (by simp), List.take_left]
  | unknownCommand code =>
    cases hbytes
    exact decodeTransaction_unknown (by simpa [Instr.wellFormed] using hc) extra
  | transactionCutShort active =>
    cases active with
    | false => exact absurd rfl hwhole
    | true => cases hbytes
  | _ => cases hbytes <;> rfl

/-- Fewer bytes than a command's are cut short (R181). -/
theorem decodeTransaction_cut_short {c : Instr} {bytes : List Byte} (hc : c.wellFormed = true)
    (hbytes : encodeTransaction c = some bytes) {n : Nat} (hn : n < bytes.length) :
    decodeTransaction (bytes.take n) = .transactionCutShort false := by
  match n, hn with
  | 0, _ => rfl
  | n + 1, hn =>
    cases c with
    | ackFaults kinds =>
      cases hbytes
      match n, hn with
      | 0, _ => rfl
      | 1, _ => rfl
      | n + 2, hn => simp [argumentBytes] at hn; omega
    | readTally k =>
      cases hbytes
      match n, hn with
      | 0, _ => rfl
      | n + 1, hn => simp at hn
    | readImage offset count =>
      cases hbytes
      match n, hn with
      | 0, _ => rfl
      | 1, _ => rfl
      | 2, _ => rfl
      | n + 3, hn => simp [argumentBytes] at hn; omega
    | writeConfig offset data =>
      cases hbytes
      have hlength : data.length ≤ 255 := of_decide_eq_true hc
      match n, hn with
      | 0, _ => rfl
      | 1, _ => rfl
      | 2, _ => rfl
      | n + 3, hn =>
        have hshort : n < data.length := by simpa [argumentBytes] using hn
        refine (decodeTransaction_writeConfig_data hlength (data.take n)).trans (if_neg ?_)
        rw [List.length_take]
        omega
    | closeStack k =>
      cases hbytes
      match n, hn with
      | 0, _ => rfl
      | n + 1, hn => simp at hn
    | transactionCutShort active =>
      cases active with
      | false => cases hbytes; simp at hn
      | true => cases hbytes
    | _ => cases hbytes <;> simp at hn

/-- Settles O60: the notice's bytes by its kind, the transaction's by its command. -/
theorem bytesRoundTrip : Obligations.BytesRoundTrip := by
  refine ⟨fun n h => ⟨noticeOf_bytes n h, ?_⟩, fun c bytes extra hc hbytes =>
    ⟨fun hwhole => decodeTransaction_encoded hc hbytes hwhole extra, fun n hn => decodeTransaction_cut_short hc hbytes hn⟩⟩
  cases n with
  | halt r t => cases t <;> exact ⟨by simp [Notice.bytes], rfl⟩
  | _ => exact ⟨by simp [Notice.bytes, wordBytes], rfl⟩

end Sys2Proof.Machine
end

section
/-! PROOFS. The image written and validated (R52, R183, R184, R189). -/

namespace Sys2Proof.Machine

open Sys2Proof

variable {s : State} {im : Image} {o : Nat}

/-! ### WRITE CONFIG (R183) -/

theorem Image.write_getElem? {data : List Byte} (h : o + data.length ≤ im.length) (i : Nat) :
    (Image.write im o data)[i]? = if o ≤ i ∧ i < o + data.length then data[i - o]? else im[i]? := by
  have hfront : (im.take o).length = o := by rw [List.length_take]; omega
  rw [Image.write, List.append_assoc]
  rcases Nat.lt_or_ge i o with hlow | hlow
  · rw [List.getElem?_append_left (by omega), List.getElem?_take_of_lt hlow, if_neg (by omega)]
  · rw [List.getElem?_append_right (by omega), hfront]
    rcases Nat.lt_or_ge i (o + data.length) with hhigh | hhigh
    · rw [List.getElem?_append_left (by omega), if_pos ⟨hlow, hhigh⟩]
    · rw [List.getElem?_append_right (by omega), List.getElem?_drop, if_neg (by omega)]
      congr 1
      omega

/-! ### The checks of a field (R184, R189) -/

theorem Image.byte_lt (im : Image) (o : Nat) : Image.byte im o < 256 := BitVec.isLt _

theorem Image.word_lt (im : Image) (o : Nat) : Image.word im o < 65536 := by
  have h := Image.byte_lt im o
  have h' := Image.byte_lt im (o + 1)
  show Image.byte im o * 256 + Image.byte im (o + 1) < 65536
  omega

theorem Image.role_feed_iff : Image.role im = some .feed ↔ Image.byte im 0x001 = 1 := by
  unfold Image.role
  split <;> simp_all

theorem eq_false_iff_of_and {p q : Prop} [Decidable p] [Decidable q] : false = (decide p && decide q) ↔ ¬ p ∨ ¬ q := by
  rw [eq_comm, Bool.and_eq_false_iff, decide_eq_false_iff_not, decide_eq_false_iff_not]

theorem failing_checkByte_iff {x lo hi : Nat} : (o, false) = Image.checkByte im x lo hi
    ↔ o = x ∧ (Image.byte im o < lo ∨ hi < Image.byte im o) := by
  rw [Image.checkByte, Prod.mk.injEq]
  refine and_congr_right fun h => ?_
  rw [h, eq_false_iff_of_and, Nat.not_le, Nat.not_le]

theorem failing_checkWord_iff {x lo hi : Nat} : (o, false) = Image.checkWord im x lo hi
    ↔ o = x ∧ (Image.word im o < lo ∨ hi < Image.word im o) := by
  rw [Image.checkWord, Prod.mk.injEq]
  refine and_congr_right fun h => ?_
  rw [h, eq_false_iff_of_and, Nat.not_le, Nat.not_le]

/-- A field of the station's own that lies outside its Valid column (R189). -/
def stationFails (im : Image) (o : Nat) : Prop :=
  let b (o : Nat) : Nat := Image.byte im o
  let w (o : Nat) : Nat := Image.word im o
  (o = 0x000 ∧ (b o < 1 ∨ 15 < b o)) ∨ ((o = 0x001 ∨ o = 0x003) ∧ (b o < 1 ∨ 3 < b o))
  ∨ (o = 0x002 ∧ (b o < 1 ∨ 4 < b o)) ∨ (o = 0x004 ∧ (w o < 16 ∨ 4095 < w o)) ∨ (o = 0x006 ∧ b o < 1)
  ∨ ((o = 0x007 ∨ o = 0x008 ∨ o = 0x009) ∧ 15 < b o) ∨ (o = 0x00A ∧ w o < 500) ∨ (o = 0x00C ∧ 8191 < w o)
  ∨ (o = 0x011 ∧ b 0x001 = 1 ∧ (b o < 1 ∨ b 0x002 < b o)) ∨ ((o = 0x012 ∨ o = 0x014) ∧ 1023 < w o)
  ∨ ((o = 0x016 ∨ o = 0x01A) ∧ 4095 < w o) ∨ (o = 0x018 ∧ (w o < 1000 ∨ 32767 < w o))
  ∨ (o = 0x01E ∧ b o < 20) ∨ (o = 0x01F ∧ b o < 10)

/-- A listen entry that fails (R48, R184). -/
def listenFails (im : Image) (o : Nat) : Prop :=
  let b (o : Nat) : Nat := Image.byte im o
  ∃ i, i < 8 ∧ b (0x020 + 3 * i) ≠ 0
    ∧ ((o = 0x020 + 3 * i ∧ (15 < b o ∨ b o = b 0x000 ∨ ∃ j, j < i ∧ b (0x020 + 3 * j) = b o))
      ∨ (o = 0x021 + 3 * i ∧ ¬ b 0x001 = 1 ∧ 32768 ≤ Image.word im o))

/-- A used profile entry's field that fails (R20, R184). -/
def profileFails (im : Image) (o : Nat) : Prop :=
  let b (o : Nat) : Nat := Image.byte im o
  let w (o : Nat) : Nat := Image.word im o
  ∃ p, 1 ≤ p ∧ p ≤ 15 ∧ w (0x038 + 12 * p) ≠ 0
    ∧ ((o = 0x038 + 12 * p ∧ 6000 < w o)
      ∨ ((o = 0x03A + 12 * p ∨ o = 0x03C + 12 * p ∨ o = 0x03E + 12 * p) ∧ 1023 < w o)
      ∨ (o = 0x040 + 12 * p ∧ 1 < b o) ∨ (o = 0x041 + 12 * p ∧ 2 < b o) ∨ (o = 0x042 + 12 * p ∧ 4 < b o)
      ∨ (o = 0x043 + 12 * p ∧ (b o % 64 = 0 ∨ (b o).testBit 6 = true)))

/-- A sort-unit field that lies outside its Valid column (R189). -/
def sortingFails (im : Image) (o : Nat) : Prop :=
  let b (o : Nat) : Nat := Image.byte im o
  let w (o : Nat) : Nat := Image.word im o
  (o = 0x0F8 ∧ 4 < b o) ∨ (o = 0x0F9 ∧ b o < 20) ∨ ((o = 0x0FA ∨ o = 0x100) ∧ 8191 < w o)
  ∨ ((o = 0x0FC ∨ o = 0x102) ∧ 1023 < w o) ∨ (o = 0x0FE ∧ 2047 < w o)

/-- A fault-policy byte that fails (R189). -/
def policyFails (im : Image) (o : Nat) : Prop :=
  0x12E ≤ o ∧ o < 0x13E ∧ ∃ n, 2 ≤ n ∧ n ≤ 6 ∧ (Image.byte im o).testBit n = true

theorem homeLane_fails_iff : (o, false) = (0x011, Image.role im != some .feed
      || (decide (1 ≤ Image.homeLane im) && decide (Image.homeLane im ≤ Image.laneCount im)))
    ↔ o = 0x011 ∧ Image.byte im 0x001 = 1 ∧ (Image.byte im o < 1 ∨ Image.byte im 0x002 < Image.byte im o) := by
  rw [Prod.mk.injEq]
  refine and_congr_right fun h => ?_
  subst h
  rw [eq_comm, Bool.or_eq_false_iff, bne_eq_false_iff_eq, Image.role_feed_iff, eq_comm (b := false),
    eq_false_iff_of_and, Nat.not_le, Nat.not_le]
  rfl

theorem failing_station_iff : (o, false) ∈
    [Image.checkByte im 0x000 1 15, Image.checkByte im 0x001 1 3, Image.checkByte im 0x002 1 4,
     Image.checkByte im 0x003 1 3, Image.checkWord im 0x004 16 4095, Image.checkByte im 0x006 1 255,
     Image.checkByte im 0x007 0 15, Image.checkByte im 0x008 0 15, Image.checkByte im 0x009 0 15,
     Image.checkWord im 0x00A 500 65535, Image.checkWord im 0x00C 0 8191,
     (0x011, Image.role im != some .feed
       || (decide (1 ≤ Image.homeLane im) && decide (Image.homeLane im ≤ Image.laneCount im))),
     Image.checkWord im 0x012 0 1023, Image.checkWord im 0x014 0 1023, Image.checkWord im 0x016 0 4095,
     Image.checkWord im 0x018 1000 32767, Image.checkWord im 0x01A 0 4095,
     Image.checkByte im 0x01E 20 255, Image.checkByte im 0x01F 10 255] ↔ stationFails im o := by
  have hb : ¬ 255 < Image.byte im o := Nat.not_lt.mpr (Nat.le_of_lt_succ (Image.byte_lt im o))
  have hw : ¬ 65535 < Image.word im o := Nat.not_lt.mpr (Nat.le_of_lt_succ (Image.word_lt im o))
  simp only [List.mem_cons, List.not_mem_nil, or_false, failing_checkByte_iff, failing_checkWord_iff, homeLane_fails_iff,
    stationFails, Nat.not_lt_zero, false_or, hb, hw, or_and_right, or_assoc]
  exact iff_of_eq (by ac_rfl)

theorem failing_sorting_iff : (o, false) ∈
    [Image.checkByte im 0x0F8 0 4, Image.checkByte im 0x0F9 20 255, Image.checkWord im 0x0FA 0 8191,
      Image.checkWord im 0x0FC 0 1023, Image.checkWord im 0x0FE 0 2047, Image.checkWord im 0x100 0 8191,
      Image.checkWord im 0x102 0 1023] ↔ sortingFails im o := by
  have hb : ¬ 255 < Image.byte im o := Nat.not_lt.mpr (Nat.le_of_lt_succ (Image.byte_lt im o))
  simp only [List.mem_cons, List.not_mem_nil, or_false, failing_checkByte_iff, failing_checkWord_iff, sortingFails,
    Nat.not_lt_zero, false_or, hb, or_and_right, or_assoc]
  exact iff_of_eq (by ac_rfl)

theorem signedWord_nonneg_iff {n : Nat} (h : n < 65536) : 0 ≤ signedWord n ↔ n < 32768 := by
  unfold signedWord
  split <;> omega

theorem failing_listen_iff : (o, false) ∈ (List.range 8).flatMap (Image.checkListen im) ↔ listenFails im o := by
  have haddress (i : Nat) : Image.listenAddress im i = Image.byte im (0x020 + 3 * i) := rfl
  have hoffset (i : Nat) : 0 ≤ Image.listenOffset im i ↔ Image.word im (0x021 + 3 * i) < 32768 :=
    signedWord_nonneg_iff (Image.word_lt im _)
  have hsender (i : Nat) : false = (!(Image.listenAddress im i != 0) || (decide (Image.listenAddress im i ≤ 15)
        && Image.listenAddress im i != Image.address im
        && (List.range i).all fun j => Image.listenAddress im j != Image.listenAddress im i))
      ↔ Image.byte im (0x020 + 3 * i) ≠ 0 ∧ (15 < Image.byte im (0x020 + 3 * i)
        ∨ Image.byte im (0x020 + 3 * i) = Image.byte im 0x000
        ∨ ∃ j, j < i ∧ Image.byte im (0x020 + 3 * j) = Image.byte im (0x020 + 3 * i)) := by
    rw [eq_comm, Bool.or_eq_false_iff, Bool.not_eq_false', bne_iff_ne, Bool.and_eq_false_iff, Bool.and_eq_false_iff,
      decide_eq_false_iff_not, bne_eq_false_iff_eq, List.all_eq_false, or_assoc, Nat.not_le]
    simp [haddress, Image.address]
  have hdistance (i : Nat) : false = (!(Image.listenAddress im i != 0) || Image.role im == some .feed
        || decide (0 ≤ Image.listenOffset im i))
      ↔ Image.byte im (0x020 + 3 * i) ≠ 0 ∧ ¬ Image.byte im 0x001 = 1 ∧ 32768 ≤ Image.word im (0x021 + 3 * i) := by
    rw [eq_comm, Bool.or_eq_false_iff, Bool.or_eq_false_iff, Bool.not_eq_false', bne_iff_ne, decide_eq_false_iff_not,
      beq_eq_false_iff_ne, ne_eq (Image.role im), Image.role_feed_iff, hoffset, Nat.not_lt, and_assoc, haddress]
  rw [List.mem_flatMap, listenFails]
  refine exists_congr fun i => ?_
  rw [List.mem_range, Image.checkListen]
  refine and_congr_right fun _ => ?_
  simp only [List.mem_cons, List.not_mem_nil, or_false, Prod.mk.injEq, hsender, hdistance]
  constructor
  · rintro (⟨rfl, hused, h⟩ | ⟨rfl, hused, h⟩)
    · exact ⟨hused, .inl ⟨rfl, h⟩⟩
    · exact ⟨hused, .inr ⟨rfl, h⟩⟩
  · rintro ⟨hused, ⟨rfl, h⟩ | ⟨rfl, h⟩⟩
    · exact .inl ⟨rfl, hused, h⟩
    · exact .inr ⟨rfl, hused, h⟩

theorem failing_profile_iff {p : Nat} : (o, false) ∈ Image.checkProfile im p
    ↔ Image.word im (0x038 + 12 * p) ≠ 0
      ∧ ((o = 0x038 + 12 * p ∧ 6000 < Image.word im o)
        ∨ ((o = 0x03A + 12 * p ∨ o = 0x03C + 12 * p ∨ o = 0x03E + 12 * p) ∧ 1023 < Image.word im o)
        ∨ (o = 0x040 + 12 * p ∧ 1 < Image.byte im o) ∨ (o = 0x041 + 12 * p ∧ 2 < Image.byte im o)
        ∨ (o = 0x042 + 12 * p ∧ 4 < Image.byte im o)
        ∨ (o = 0x043 + 12 * p ∧ (Image.byte im o % 64 = 0 ∨ (Image.byte im o).testBit 6 = true))) := by
  have hoffset (k : Nat) : 56 + 12 * p + k = 56 + k + 12 * p := by omega
  have hnominal : Image.entryNominal im p = Image.word im (0x038 + 12 * p) := rfl
  have hmax : Config.maxNominal = 6000 := rfl
  have hlast {x : Nat} : (o, false) = (x, Image.byte im x % 64 != 0 && Image.byte im x / 64 % 2 == 0)
      ↔ o = x ∧ (Image.byte im o % 64 = 0 ∨ (Image.byte im o).testBit 6 = true) := by
    rw [Prod.mk.injEq]
    refine and_congr_right fun hx => ?_
    rw [hx, eq_comm, Bool.and_eq_false_iff, bne_eq_false_iff_eq, beq_eq_false_iff_ne, Nat.testBit_eq_decide_div_mod_eq,
      decide_eq_true_eq]
    exact or_congr_right Nat.mod_two_ne_zero
  unfold Image.checkProfile
  rw [hnominal]
  split
  next h => simp [h]
  next h =>
    have hnominalFails : (o, false) = Image.checkWord im (0x038 + 12 * p) 1 6000
        ↔ o = 0x038 + 12 * p ∧ 6000 < Image.word im o := by
      refine failing_checkWord_iff.trans (and_congr_right fun ho => or_iff_right ?_)
      subst ho
      omega
    simp only [List.mem_cons, List.not_mem_nil, or_false, profileOffset, hmax, hnominalFails, failing_checkByte_iff,
      failing_checkWord_iff, hlast, Nat.not_lt_zero, false_or, hoffset, or_and_right, or_assoc, h, ne_eq,
      not_false_eq_true, true_and]

theorem failing_policy_iff : (o, false) ∈
    (List.range 16).map (fun k => (0x12E + k, Image.byte im (0x12E + k) / 4 % 32 == 0)) ↔ policyFails im o := by
  have hbits (x : Nat) : (x / 4 % 32 == 0) = false ↔ ∃ n, 2 ≤ n ∧ n ≤ 6 ∧ x.testBit n = true := by
    simp only [beq_eq_false_iff_ne, Nat.testBit_eq_decide_div_mod_eq, decide_eq_true_eq]
    constructor
    · intro hne
      by_contra hnone
      have hzero (n : Nat) (h2 : 2 ≤ n) (h6 : n ≤ 6) : x / 2 ^ n % 2 = 0 :=
        (Nat.mod_two_eq_zero_or_one _).resolve_right fun h => hnone ⟨n, h2, h6, h⟩
      have h2 := hzero 2 (by omega) (by omega)
      have h3 := hzero 3 (by omega) (by omega)
      have h4 := hzero 4 (by omega) (by omega)
      have h5 := hzero 5 (by omega) (by omega)
      have h6 := hzero 6 (by omega) (by omega)
      norm_num at h2 h3 h4 h5 h6
      omega
    · rintro ⟨n, hlow, hhigh, hbit⟩
      interval_cases n <;> norm_num at hbit <;> omega
  rw [List.mem_map, policyFails]
  constructor
  · rintro ⟨k, hk, h⟩
    rw [Prod.mk.injEq] at h
    obtain ⟨rfl, h⟩ := h
    exact ⟨by omega, by have := List.mem_range.mp hk; omega, (hbits _).mp h⟩
  · rintro ⟨hlow, hhigh, h⟩
    refine ⟨o - 0x12E, List.mem_range.mpr (by omega), ?_⟩
    have ho : 0x12E + (o - 0x12E) = o := by omega
    rw [ho, (hbits _).mpr h]

theorem failing_iff : (o, false) ∈ Image.fieldChecks im
    ↔ stationFails im o ∨ listenFails im o ∨ profileFails im o ∨ sortingFails im o ∨ policyFails im o := by
  have hprofiles : (o, false) ∈ (List.range 15).flatMap (fun p => Image.checkProfile im (p + 1)) ↔ profileFails im o := by
    simp only [List.mem_flatMap, List.mem_range, failing_profile_iff]
    constructor
    · rintro ⟨p, hp, h⟩
      exact ⟨p + 1, by omega, by omega, h⟩
    · rintro ⟨p, hlow, hhigh, h⟩
      refine ⟨p - 1, by omega, ?_⟩
      rw [Nat.sub_add_cancel hlow]
      exact h
  unfold Image.fieldChecks
  rw [List.mem_append, List.mem_append, List.mem_append, List.mem_append, failing_station_iff, failing_listen_iff,
    hprofiles, failing_sorting_iff, failing_policy_iff, or_assoc, or_assoc, or_assoc]

/-! ### WRITE CONFIG and VALIDATE (R52, R183, R184) -/

theorem Image.sum_eq (im : Image) : Image.sum im 0x000 0x13E = ((im.take 0x13E).map BitVec.toNat).sum % 65536 := rfl

theorem execValidate_of_valid (hfrozen : s.spi.frozen = false) (hdeparture : s.control.departure = false)
    (h : Image.firstFailure s.image = none) :
    execValidate s = .next (s.respond (s.withStationState .configured) 0 0x00 []) := by
  rw [execValidate, hfrozen, hdeparture, h]
  rfl

theorem execValidate_of_failure (hfrozen : s.spi.frozen = false) (hdeparture : s.control.departure = false) {o : Nat}
    (h : Image.firstFailure s.image = some o) :
    execValidate s = .next (s.respond (s.withStationState .unconfigured) 0 0x05 (wordBytes o)) := by
  rw [execValidate, hfrozen, hdeparture, h]
  rfl

/-- Settles O47: the bytes in their places, and the first failing field as the least that fails. -/
theorem writeConfigAndValidate : Obligations.WriteConfigAndValidate := by
  intro s hfrozen hdeparture hlength
  refine ⟨fun o data hpos hle hend => ?write, fun hvalid => ?valid, fun o ho => ?invalid, fun hsum => ?sum,
    fun hvalid => ?ranges, ?fields⟩
  case write =>
    have hlast : o.toNat + data.length ≤ s.spi.image.length := hlength ▸ hend
    have hallowed : stretchAllowed o.toNat data.length = true := stretchAllowed_iff.mpr ⟨by omega, hle, hend⟩
    refine ⟨Image.write s.spi.image o.toNat data, ?_, (Image.write_length hlast).trans hlength, fun i hi => ?_,
      fun i hi => ?_⟩
    · show execWriteConfig o data s = _
      rw [execWriteConfig, hfrozen, hdeparture, hallowed]
      rfl
    · rw [Image.write_getElem? hlast, if_pos (by omega), Nat.add_sub_cancel_left]
    · rw [Image.write_getElem? hlast, if_neg (by omega)]
  case valid =>
    exact execValidate_of_valid hfrozen hdeparture hvalid
  case invalid =>
    have hexec := execValidate_of_failure hfrozen hdeparture ho
    rw [wordBytes_eq_div_mod] at hexec
    exact hexec
  case sum => exact if_pos hsum
  case ranges =>
    have hok {x : FieldCheck} (hx : x ∈ Image.fieldChecks s.image) : x.2 = true := Image.check_of_valid hvalid hx
    have hbyte {o lo hi : Nat} (hx : Image.checkByte s.image o lo hi ∈ Image.fieldChecks s.image) :
        lo ≤ Image.byte s.image o ∧ Image.byte s.image o ≤ hi := by
      have h := hok hx
      rwa [Image.checkByte, Bool.and_eq_true, decide_eq_true_eq, decide_eq_true_eq] at h
    have hword {o lo hi : Nat} (hx : Image.checkWord s.image o lo hi ∈ Image.fieldChecks s.image) :
        lo ≤ Image.word s.image o ∧ Image.word s.image o ≤ hi := by
      have h := hok hx
      rwa [Image.checkWord, Bool.and_eq_true, decide_eq_true_eq, decide_eq_true_eq] at h
    obtain ⟨ha, ha'⟩ := hbyte (o := 0x000) (lo := 1) (hi := 15) (by simp [Image.fieldChecks])
    obtain ⟨hr, hr'⟩ := hbyte (o := 0x001) (lo := 1) (hi := 3) (by simp [Image.fieldChecks])
    obtain ⟨hl, hl'⟩ := hbyte (o := 0x002) (lo := 1) (hi := 4) (by simp [Image.fieldChecks])
    obtain ⟨hs, hs'⟩ := hword (o := 0x004) (lo := 16) (hi := 4095) (by simp [Image.fieldChecks])
    exact ⟨ha, ha', hr, hr', hl, hl', hs, hs'⟩
  case fields =>
    intro b w feed station listen profile sorting policy fails hsum
    have hfails (o : Nat) : (o, false) ∈ Image.fieldChecks s.image ↔ fails o := failing_iff
    have hfirst (o : Nat) : Image.firstFailure s.image = some o ↔ fails o ∧ ∀ n, n < o → ¬ fails n := by
      rw [Image.firstFailure_iff hsum, hfails]
      refine and_congr_right fun _ => ⟨fun h n hn hf => ?_, fun h n hn => ?_⟩
      · exact absurd (h n ((hfails n).mpr hf)) (Nat.not_le.mpr hn)
      · exact Nat.le_of_not_lt fun hlt => h n hlt ((hfails n).mp hn)
    refine ⟨hfirst, fun hnone o ho => ?_, fun hall => ?_⟩
    · have hok := Image.check_of_valid hnone ((hfails o).mpr ho)
      exact Bool.false_ne_true hok
    · cases hf : Image.firstFailure s.image with
      | none => rfl
      | some o => exact absurd ((hfirst o).mp hf).1 (hall o)

end Sys2Proof.Machine
end

section
/-! PROOFS. What the processor port refuses, and LEAVE (R68, R69, R181 to R187). -/

namespace Sys2Proof.Machine

open Sys2Proof

variable {c : Instr} {s t : State}

/-! ### What stands between the takes (R181) -/

/-- An act of a command that is no part of a transaction leaves the transaction and the bytes returned. -/
theorem Act.transaction_of_off_port (h : Act c s t) (hport : ¬ onPort c) (hreset : ∀ pins, c ≠ .hardReset pins) :
    t.spi.transaction = s.spi.transaction ∧ t.spi.returned = s.spi.returned := by
  cases h
  case answer hc => exact absurd hc hport
  case put n age _ => exact ⟨by rw [(s.put_quiet n age).spi], by rw [(s.put_quiet n age).spi]⟩
  case openHole x f n _ _ _ _ _ _ =>
    have hspi := ((s.holdOpen x f).put_quiet n 0).spi
    exact ⟨by rw [hspi]; rfl, by rw [hspi]; rfl⟩
  case holeSent x _ _ =>
    have hspi := (State.holeCompleted_within { s with port := s.port.sent }).spi
    exact ⟨by rw [hspi], by rw [hspi]⟩
  case move h =>
    cases h
    case join hc _ _ => subst hc; exact absurd (.inl (Option.some_ne_none _)) hport
    case leave hc _ => subst hc; exact absurd (.inl (Option.some_ne_none _)) hport
    case writeImage hc _ _ _ => subst hc; exact absurd (.inl (Option.some_ne_none _)) hport
    case validate hc _ _ _ => exact ⟨rfl, rfl⟩
    case reset pins hc => exact absurd hc (hreset pins)
    all_goals exact ⟨rfl, rfl⟩
  all_goals exact ⟨rfl, rfl⟩

theorem exec_transaction_of_off_port (h : exec c s = .next t) (hport : ¬ onPort c) (hreset : ∀ pins, c ≠ .hardReset pins) :
    t.spi.transaction = s.spi.transaction ∧ t.spi.returned = s.spi.returned :=
  Acts.keep (P := fun u => u.spi.transaction = s.spi.transaction ∧ u.spi.returned = s.spi.returned)
    (fun _ _ hact ⟨htransaction, hreturned⟩ =>
      let ⟨h, h'⟩ := hact.transaction_of_off_port hport hreset
      ⟨h.trans htransaction, h'.trans hreturned⟩)
    (exec_acts h) ⟨rfl, rfl⟩

/-! ### The refusals (R181 to R187) -/

theorem FaultUnit.haltKind_isSome_iff {u : FaultUnit} : u.haltKind.isSome = true
    ↔ ∃ k : FaultKind, u.pending.getLsbD k.place.val = true ∧ (u.policyFor k).severity = .halt := by
  have hall (k : FaultKind) : k ∈ faultKinds := by cases k <;> decide
  rw [FaultUnit.haltKind, List.isSome_head?, ← List.isEmpty_eq_false_iff, List.isEmpty_eq_false_iff_exists_mem]
  exact exists_congr fun k => by simp [FaultUnit.pendingOf, hall k, FaultUnit.isPending]

theorem stretchAllowed_of_outside {o n : Nat} (h : n = 0 ∨ 64 < n ∨ 320 < o + n) : stretchAllowed o n = false := by
  rw [← Bool.not_eq_true, stretchAllowed_iff]
  omega

theorem stackerNamed_of_val {b : Byte} {x : StackerNo} (h : b.toNat = x.val) : stackerNamed b = some x := by
  have hlt : b.toNat < 4 := h ▸ x.isLt
  rw [stackerNamed, dif_pos hlt]
  exact congrArg some (Fin.ext h)

theorem stackerNamed_of_above {b : Byte} (h : 3 < b.toNat) : stackerNamed b = none := dif_neg (by omega)

/-- Settles O26: each check at its place in the order. -/
theorem portRefusals : Obligations.PortRefusals := by
  intro s refused
  have hout : (s.control.haltSet.getLsbD (Image.address s.image) = true) = (s.ownHaltOut = true) := rfl
  have hnot {b : Bool} (h : b = false) : (!b) = true := by rw [h]; rfl
  have hkept {b : Bool} (h : b = true) : ¬ (!b) = true := by rw [h]; exact Bool.false_ne_true
  have hfalse {b : Bool} (h : b = false) : ¬ b = true := by rw [h]; exact Bool.false_ne_true
  refine ⟨fun code hcode => if_neg (by simpa using hcode), rfl, rfl, fun c t hc hcut hreset h => ?between,
    fun n hn => List.getD_eq_default _ _ hn, fun h => if_pos h, fun h => if_neg (hfalse h), fun h => if_pos (hnot h),
    fun h h' => (if_neg (hkept h)).trans (if_pos h'), fun h => if_pos h,
    fun h h' => (if_neg h).trans (if_pos (hnot h')),
    fun h h' hkind => (if_neg h).trans ((if_neg (hkept h')).trans (if_pos (FaultUnit.haltKind_isSome_iff.mpr hkind))),
    fun n h => if_pos ?tally, fun o n h => if_neg (hfalse (stretchAllowed_of_outside ?image)),
    fun o data => ⟨fun h => if_pos h, fun h h' => (if_neg (hfalse h)).trans (if_pos h'), fun h h' hdata =>
      (if_neg (hfalse h)).trans ((if_neg (hfalse h')).trans (if_neg (hfalse (stretchAllowed_of_outside hdata))))⟩,
    fun h => if_pos h, fun h h' => (if_neg (hfalse h)).trans (if_pos h'),
    fun b => ⟨fun h => if_pos (hnot h), fun h hrole => (if_neg (hkept h)).trans (if_pos hrole), fun h hrole hb => ?above,
      fun h hrole x hx hnothing => ?nothing⟩⟩
  case between =>
    refine exec_transaction_of_off_port h (fun hport => ?_) hreset
    rcases hport with h | h
    · exact h hc
    · exact hcut h
  case tally =>
    rcases h with rfl | h
    · exact .inl rfl
    · exact .inr h
  case image =>
    rcases h with rfl | h
    · exact .inl rfl
    · exact .inr h
  case above =>
    refine (if_neg (hkept h)).trans ((if_neg (not_not.mpr hrole)).trans ?_)
    rw [stackerNamed_of_above hb]
    rfl
  case nothing =>
    refine (if_neg (hkept h)).trans ((if_neg (not_not.mpr hrole)).trans ?_)
    rw [stackerNamed_of_val hx]
    exact if_pos hnothing

/-! ### LEAVE (R68, R69) -/

/-- The station after LEAVE: whether a departure is still to come depends on the announcement state alone. -/
theorem State.departed_eq (u : State) : u.departed = { u.unfrozen with
    port := if u.control.queued = none ∧ u.control.owed = none then .inactive
      else { u.port with queue := withoutWaitingHole u.port.queue }
    control := { u.unfrozen.control with
      departure := if u.control.queued = none ∧ u.control.owed = none then u.control.departure else true } } := by
  by_cases h : u.control.queued = none ∧ u.control.owed = none
  · rw [if_pos h, if_pos h]
    exact if_pos (by simp [h])
  · rw [if_neg h, if_neg h]
    refine if_neg fun hc => h ?_
    simpa using hc

theorem State.leaveLine_eq : s.leaveLine = s.leaveHalt.departed := rfl

theorem State.leaveHalt_of_not_out (h : s.ownHaltOut = false) : s.leaveHalt = s :=
  if_neg fun hc => Bool.false_ne_true (h.symm.trans hc)

/-- With no announcement under way the RESUME is asked of the port (R68). -/
theorem State.leaveHalt_of_none (hout : s.ownHaltOut = true) (hqueued : s.control.queued = none) :
    s.leaveHalt = State.addQuiet { s with
      control := { s.control.removeHalt (Image.address s.image) with ownHalt := none, queued := some .resume } }
      .resume 0 :=
  (if_pos hout).trans (State.announceQuiet_of_none (by exact hqueued))

theorem State.leaveHalt_of_some {q : Announced} (hout : s.ownHaltOut = true) (hqueued : s.control.queued = some q) :
    s.leaveHalt = { s with
      control := { s.control.removeHalt (Image.address s.image) with
        ownHalt := none, owed := if q = .resume then none else some .resume } } :=
  (if_pos hout).trans (State.announceQuiet_of_some (by exact hqueued))

theorem Eye.left_eq (e : Eye) (k : Lane) (im : Image) : (e.renewed (Image.eyeIsOff im k)).unfrozen
    = ⟨e.raw, e.raw, if Image.byte im 0x002 ≤ k.val ∨ (Image.byte im 0x008).testBit k.val = true then .off else .normal,
        0, 0, 0, .stopped⟩ := by
  rw [Eye.renewed_eyeIsOff]
  rfl

theorem State.departed_eyes (u : State) (k : Lane) : u.departed.eyes.get k
    = ⟨(u.eyes.get k).raw, (u.eyes.get k).raw,
        if Image.byte u.image 0x002 ≤ k.val ∨ (Image.byte u.image 0x008).testBit k.val = true then .off else .normal,
        0, 0, 0, .stopped⟩ := by
  have heyes : u.departed.eyes = (u.eyes.mapAt fun k (e : Eye) => e.renewed (Image.eyeIsOff u.image k)).mapAt
      fun _ (e : Eye) => e.unfrozen := by
    rw [State.departed_eq]
    rfl
  rw [heyes, Quad.get_mapAt, Quad.get_mapAt, Eye.left_eq]

/-- The station after a frame has put another out of its full queue, the frame's report still to come (R40). -/
structure PutOut (s v : State) (q : List Slot) : Prop where
  quiet : Quiet s v
  control : v.control = s.control
  faults : v.faults = s.faults
  port : v.port = { s.port with queue := q }

theorem State.addQuiet_of_putOut {n : Notice} {q : List Slot} {y : Slot} (hactive : s.port.active = true)
    (h : putFrame s.port.queue ⟨n, 0, false⟩ = (q, some y)) :
    ∃ v, PutOut s v q ∧ s.addQuiet n 0 = v.note (v.putOutOccurrence y) := by
  have hput := State.put_of_putOut hactive h
  have hfirst : (s.put n 0).1 = (s.withQueue q).discardReport y := by rw [hput]
  refine ⟨(s.withQueue q).discardReport y, ⟨?_, ?_, ?_, ?_⟩, by rw [State.addQuiet, hput]⟩
  · rw [← hfirst]
    exact s.put_quiet n 0
  · rw [← hfirst]
    exact s.put_control n 0
  · rw [← hfirst]
    exact s.put_faults n 0
  · exact State.discardReport_port _ _

/-- Settles O23: the own halt's announcement first, then what every LEAVE clears. -/
theorem leaveAccepted : Obligations.LeaveAccepted := by
  intro s hline
  have hquiet := s.leaveHalt_quiet
  have hexec : exec .leave s = .next (answered s s.leaveHalt.departed 0 [0x00]) := if_pos hline
  have hbusy {u : State} (h : u.control.queued ≠ none) : ¬ (u.control.queued = none ∧ u.control.owed = none) :=
    fun hc => h hc.1
  refine ⟨_, hexec, ?_⟩
  refine ⟨?state, ?haltSet, ?firstHalt, ?ownHalt, ?settleTimer, ?seq, ?restartFlag, ?holdInput, ?spi, ?travel,
    fun k => ?eyes, ?entries, fun k => ?orphans, ?adopted, ?feed, ?hole, ?sort, ?timeBase, ?waiting,
    fun hout hqueued howed => ?quiet, fun hout hqueued howed hactive hroom => ?room, fun hout hqueued => ?halt,
    fun hout hqueued => ?resume, fun hout hqueued => ?goesOn,
    fun l y r hout hqueued howed hactive hlength hqueue hy hr hkind => ?full⟩
  case quiet =>
    rw [State.leaveHalt_of_not_out hout, State.departed_eq, if_pos ⟨hqueued, howed⟩, if_pos ⟨hqueued, howed⟩]
    exact ⟨rfl, rfl, rfl⟩
  case room =>
    have hleft : s.leaveHalt = State.queued { s with
        control := { s.control.removeHalt (Image.address s.image) with ownHalt := none, queued := some .resume } }
        .resume := (State.leaveHalt_of_none hout hqueued).trans (State.addQuiet_of_room (by exact hactive) (by exact hroom))
    rw [hleft, State.departed_eq, if_neg (hbusy (Option.some_ne_none _)), if_neg (hbusy (Option.some_ne_none _))]
    exact ⟨rfl, rfl, howed, rfl, rfl⟩
  case halt =>
    have hsome : s.control.queued ≠ none := by rw [hqueued]; exact Option.some_ne_none _
    rw [State.leaveHalt_of_some hout hqueued, State.departed_eq, if_neg (hbusy (by exact hsome)),
      if_neg (hbusy (by exact hsome))]
    exact ⟨rfl, hqueued, rfl, rfl, rfl⟩
  case resume =>
    have hsome : s.control.queued ≠ none := by rw [hqueued]; exact Option.some_ne_none _
    rw [State.leaveHalt_of_some hout hqueued, State.departed_eq, if_neg (hbusy (by exact hsome)),
      if_neg (hbusy (by exact hsome))]
    exact ⟨rfl, hqueued, rfl, rfl, rfl⟩
  case goesOn =>
    rw [State.leaveHalt_of_not_out hout, State.departed_eq, if_neg (hbusy hqueued), if_neg (hbusy hqueued)]
    exact ⟨rfl, rfl, rfl, rfl, rfl⟩
  case full =>
    have hlength' : (l ++ y :: r).length = 8 := hqueue ▸ hlength
    have hput : putFrame s.port.queue ⟨.resume, 0, false⟩ = (insertSlot ⟨.resume, 0, false⟩ (l ++ r), some y) :=
      hqueue ▸ putFrame_of_lower hlength' hy hr hkind
    obtain ⟨v, hv, hadd⟩ := State.addQuiet_of_putOut (s := { s with
      control := { s.control.removeHalt (Image.address s.image) with ownHalt := none, queued := some .resume } })
      hactive hput
    have hoccurrence : v.putOutOccurrence y
        = ⟨.lineBus, y.notice.tag?, none, BitVec.ofNat 16 (6 * 256 + (y.notice.code * 16 + Image.address s.image))⟩ := by
      rw [State.putOutOccurrence, State.identOf, hv.quiet.image]
      rfl
    have hleft := (State.leaveHalt_of_none hout hqueued).trans hadd
    have hannounced : s.leaveHalt.control.queued = some .resume := by rw [hleft, State.note_control, hv.control]
    have hbusy' := hbusy (u := s.leaveHalt) (by rw [hannounced]; exact Option.some_ne_none _)
    have howed' : s.leaveHalt.control.owed = none := by rw [hleft, State.note_control, hv.control]; exact howed
    have hport : s.leaveHalt.port = { s.port with queue := insertSlot ⟨.resume, 0, false⟩ (l ++ r) } := by
      rw [hleft, State.note_port, hv.port]
    have hfaults : s.leaveHalt.faults = s.faults.take (v.putOutOccurrence y) := by
      rw [hleft, State.note_faults, hv.faults]
    rw [State.departed_eq, if_neg hbusy', if_neg hbusy']
    refine ⟨rfl, hannounced, howed', ?_, ?_⟩
    · show ({ s.leaveHalt.port with queue := withoutWaitingHole s.leaveHalt.port.queue } : LinePort) = _
      rw [hport]
    · rw [← hoccurrence]
      exact hfaults
  case eyes =>
    have heyes := s.leaveHalt.departed_eyes k
    rw [hquiet.eyes, hquiet.image] at heyes
    exact heyes
  all_goals rw [State.departed_eq]
  case state | haltSet | firstHalt | ownHalt | settleTimer | entries | adopted | hole => rfl
  case orphans => exact Quad.get_all k none
  case seq => exact hquiet.seq
  case restartFlag => exact hquiet.restartFlag
  case holdInput => exact hquiet.holdInput
  case timeBase => exact hquiet.timeBase
  case waiting => exact hquiet.pending
  case spi =>
    show ({ s.leaveHalt.spi with frozen := false, transaction := none, returned := _ } : ProcessorPort) = _
    rw [hquiet.spi]
    rfl
  case travel =>
    show s.leaveHalt.travel.ended = _
    rw [hquiet.travel]
    rfl
  case feed =>
    show FeedUnit.cleared s.leaveHalt.feed.spreader = _
    rw [hquiet.spreader]
    rfl
  case sort =>
    show SortUnit.cleared s.leaveHalt.sort.runout s.leaveHalt.sort.tally = _
    rw [hquiet.runout, hquiet.tally]

end Sys2Proof.Machine
end

section
/-! PROOFS. The sort unit's arithmetic and its stackers: the fold arithmetic (R154, R155), the count of a piece, and the
close of a stack (R162 to R169). -/

namespace Sys2Proof.Machine

open Sys2Proof

variable {s : State}

/-! ### The fold arithmetic (R154, R155) -/

theorem mem_bladeCountdowns {actions : List Action} {n : Int} :
    n ∈ ((actions.filter fun a => a.kind == .fireBlade).map (·.countdown))
      ↔ ∃ a ∈ actions, a.kind = .fireBlade ∧ a.countdown = n := by
  simp [and_assoc]

/-- A clash with the last blade firing is a clash with any: the last stands latest. -/
theorem foldClash_iff {im : Image} {actions : List Action} {new : List Int} {first : Int} (hfirst : new.min? = some first) :
    foldClash im actions new = true
      ↔ ∃ a ∈ actions, a.kind = .fireBlade ∧ first < a.countdown + Image.bladeRecovery im := by
  rw [foldClash, hfirst]
  cases hlast : lastFiring actions with
  | none =>
    have hnone := List.max?_eq_none_iff.mp hlast
    refine iff_of_false (by simp) fun ⟨a, ha, hblade, _⟩ => ?_
    have hmem := mem_bladeCountdowns.mpr ⟨a, ha, hblade, rfl⟩
    rw [hnone] at hmem
    exact absurd hmem (by simp)
  | some last =>
    obtain ⟨hmem, hgreatest⟩ := List.max?_eq_some_iff.mp hlast
    simp only [decide_eq_true_eq]
    constructor
    · intro hclash
      obtain ⟨a, ha, hblade, hcount⟩ := mem_bladeCountdowns.mp hmem
      exact ⟨a, ha, hblade, hcount ▸ hclash⟩
    · rintro ⟨a, ha, hblade, hclash⟩
      have hle := hgreatest _ (mem_bladeCountdowns.mpr ⟨a, ha, hblade, rfl⟩)
      omega

theorem foldClash_eq_any {im : Image} {actions : List Action} {new : List Int} {first : Int}
    (hfirst : new.min? = some first) : foldClash im actions new =
      actions.any fun a => a.kind == .fireBlade && decide (first < a.countdown + Image.bladeRecovery im) := by
  rw [Bool.eq_iff_iff, foldClash_iff hfirst, List.any_eq_true]
  simp

/-- The fold arithmetic of a program whose firings come out as these, the first the least (R154, R155). -/
theorem foldArithmetic_of {im : Image} {actions : List Action} {p q : FoldProgram} {l lateness : Nat} {fellBack : Bool}
    {first : Int} {rest : List Int} (hstage : spacingStage im p l = (q, fellBack))
    (hfirings : firings im q l lateness = first :: rest) (hrest : ∀ n ∈ rest, first ≤ n) :
    foldArithmetic im actions p l lateness =
      if first < 0 then ⟨none, (if fellBack then [2] else []) ++ [1]⟩
      else if actions.any fun a => a.kind == .fireBlade && decide (first < a.countdown + Image.bladeRecovery im) then
        ⟨none, (if fellBack then [2] else []) ++ [3]⟩
      else ⟨some (first :: rest), if fellBack then [2] else []⟩ := by
  have hmin : (first :: rest).min? = some first :=
    List.min?_eq_some_iff.mpr ⟨.head _, by simpa using hrest⟩
  have hnegative : ((first :: rest).any fun c => decide (c < 0)) = decide (first < 0) := by
    rw [Bool.eq_iff_iff, List.any_eq_true, decide_eq_true_eq]
    refine ⟨fun ⟨n, hn, hneg⟩ => ?_, fun h => ⟨first, .head _, decide_eq_true h⟩⟩
    rcases List.mem_cons.mp hn with rfl | hn
    · exact of_decide_eq_true hneg
    · exact lt_of_le_of_lt (hrest n hn) (of_decide_eq_true hneg)
  simp only [foldArithmetic, hstage, hfirings, hnegative, foldClash_eq_any hmin, decide_eq_true_eq]

/-- Settles O39: the least firing is the first one of the program, so the tests of R154 and R155 are tests of it. -/
theorem foldFirings : Obligations.FoldFirings := by
  intro im actions l lateness at_ half clash
  refine ⟨rfl, foldArithmetic_of rfl rfl (by simp), ?_⟩
  by_cases hclose : 2 * l / 3 - l / 3 < Image.word im 0x0FE
  · rw [if_pos hclose]
    have hstage : spacingStage im .thirds l = (.half, true) := if_pos hclose
    exact foldArithmetic_of hstage rfl (by simp)
  · rw [if_neg hclose]
    have hstage : spacingStage im .thirds l = (.thirds, false) := if_neg hclose
    refine foldArithmetic_of hstage rfl fun n hn => ?_
    obtain rfl := List.mem_singleton.mp hn
    simp only [at_]
    omega

/-! ### The stackers (R162 to R169) -/

theorem Stacker.preFull_iff {k : Stacker} {im : Image} : k.preFull im = true
    ↔ 3 ≤ k.pre.count ∨ (∃ x, k.pre.profile = some x ∧ (Image.profile im x).target ≤ k.pre.count)
      ∨ k.batchOwed = true := by
  rw [Stacker.preFull, Bool.or_eq_true, Bool.or_eq_true, Bool.and_eq_true, decide_eq_true_eq, decide_eq_true_eq, or_assoc]
  refine or_congr Iff.rfl (or_congr ?_ Iff.rfl)
  cases k.pre.profile <;> simp [targetOf]

theorem Stacker.joinPre_of_room {k : Stacker} {im : Image} {p : Piece} {mixed : Bool}
    (h : mixed = false ∨ k.preFull im = false) : k.joinPre im p mixed
      = { k with pre := k.pre.countPiece p mixed, batchOwed := k.batchOwed || p.flags.batchClose } := by
  refine if_neg ?_
  rcases h with h | h <;> simp [h]

theorem Stacker.joinPre_of_full {k : Stacker} {im : Image} {p : Piece} (h : k.preFull im = true) :
    k.joinPre im p true = { k with pre := { k.pre with mixed := true } } := if_pos (by simp [h])

namespace SortUnit

variable {u : SortUnit} {im : Image} {p : Piece} {c : StackerNo} {mixed : Bool}

theorem countPiece_of_discharging (h : (u.stackers.get c).discharging = true) :
    u.countPiece im c p mixed = (u.joinPre im c p mixed, []) := if_pos h

theorem countPiece_of_other (h : (u.stackers.get c).discharging = false) (hcount : (u.stackers.get c).stack.count ≠ 0)
    (hother : (u.stackers.get c).stack.profile ≠ some p.profile) (hmixed : mixed = false) :
    u.countPiece im c p mixed = ((u.close c .profile).1.joinPre im c p mixed, (u.close c .profile).2) :=
  (if_neg (by simp [h])).trans (if_pos (by simp [hcount, hother, hmixed]))

theorem countPiece_of_same (h : (u.stackers.get c).discharging = false) (hsame : (u.stackers.get c).stack.count = 0
      ∨ (u.stackers.get c).stack.profile = some p.profile ∨ mixed = true) :
    u.countPiece im c p mixed = u.countOn im c p mixed := by
  refine (if_neg (by simp [h])).trans (if_neg ?_)
  rcases hsame with h | h | h <;> simp [h]

theorem close_of_room {reason : CloseReason} (h : u.tally.length < 16) : u.close c reason =
    ({ u with tally := u.tally ++ [(u.stackers.get c).tallyOf c reason],
              stackers := u.stackers.set c ⟨true, .empty, .empty, false⟩ }, []) := by
  have hadd : u.addTally ((u.stackers.get c).tallyOf c reason)
      = ({ u with tally := u.tally ++ [(u.stackers.get c).tallyOf c reason] }, []) := by
    unfold addTally
    split
    next hempty => rw [hempty]; rfl
    · exact if_pos h
  rw [close, hadd]

theorem close_of_full {reason : CloseReason} {old : Tally} {rest : List Tally} (htally : u.tally = old :: rest)
    (h : 16 ≤ u.tally.length) : u.close c reason =
    ({ u with tally := rest ++ [(u.stackers.get c).tallyOf c reason],
              stackers := u.stackers.set c ⟨true, .empty, .empty, false⟩ },
      [⟨.tally, old.first, none, BitVec.ofNat 16 old.count⟩]) := by
  have hadd : u.addTally ((u.stackers.get c).tallyOf c reason)
      = ({ u with tally := rest ++ [(u.stackers.get c).tallyOf c reason] },
        [⟨.tally, old.first, none, BitVec.ofNat 16 old.count⟩]) := by
    unfold addTally
    rw [htally] at h ⊢
    exact if_neg (Nat.not_lt.mpr h)
  rw [close, hadd]

end SortUnit

theorem exec_closeStack_of_closing {b : Byte} {c : StackerNo} (hline : s.onLine = true) (hsort : s.role = some .sort)
    (hb : b.toNat = c.val) (hcollecting : (s.sort.stackers.get c).discharging = false)
    (hcount : (s.sort.stackers.get c).stack.count ≠ 0) :
    exec (.closeStack b) s = .next (s.respond (s.withSort (s.sort.close c .operator)) 1 0x00 []) := by
  show execCloseStack b s = _
  refine (if_neg (by simp [hline])).trans ((if_neg (not_not.mpr hsort)).trans ?_)
  rw [stackerNamed_of_val hb]
  exact if_neg (by simp [hcollecting, hcount])

/-- The stacker just closed drives its discharge output (R164, R170). -/
theorem State.withSort_close_discharge {c : StackerNo} (hline : s.onLine = true) (hsort : s.role = some .sort)
    (reason : CloseReason) : (s.withSort (s.sort.close c reason)).discharge c = true := by
  have hquiet := State.occurAll_quiet { s with sort := (s.sort.close c reason).1 } (s.sort.close c reason).2
  have hstackers : (s.withSort (s.sort.close c reason)).sort.stackers
      = s.sort.stackers.set c ⟨true, .empty, .empty, false⟩ := hquiet.stackers.trans (s.sort.close_stackers c reason)
  rw [State.discharge, hstackers, Quad.get_set_same, Bool.and_true, onLineAs_iff]
  exact ⟨hquiet.onLine.trans hline, hquiet.role.trans hsort⟩

/-- Settles O42: the cases of R162 and R163 are those of the count, and a close is one tally record with its stacker
emptied (R164, R169). -/
theorem stackersCountAndClose : Obligations.StackersCountAndClose := by
  refine ⟨fun u im c q mixed => ?count, fun u c reason => ⟨fun h => SortUnit.close_of_room h, fun old rest htally h =>
    SortUnit.close_of_full htally h⟩, fun s b c hline hsort hb => ?closeStack⟩
  case count =>
    intro k none' on with_ full
    refine ⟨fun hcollecting hsame => SortUnit.countPiece_of_same hcollecting hsame,
      fun hcollecting hcount hother hmixed => ?other, fun hdischarging hroom => ?room, fun hdischarging hmixed hfull => ?full⟩
    case other =>
      refine (SortUnit.countPiece_of_other hcollecting hcount hother hmixed).trans ?_
      have hstacker : (u.close c .profile).1.stackers.get c = ⟨true, .empty, .empty, false⟩ := by
        rw [SortUnit.close_stackers, Quad.get_set_same]
      rw [SortUnit.joinPre, hstacker, Stacker.joinPre_of_room (.inl hmixed), Bool.false_or]
      rfl
    case room =>
      refine (SortUnit.countPiece_of_discharging hdischarging).trans ?_
      rw [SortUnit.joinPre, Stacker.joinPre_of_room (hroom.imp id fun h => by
        rw [← Bool.not_eq_true, Stacker.preFull_iff]; exact h)]
      rfl
    case full =>
      subst hmixed
      refine (SortUnit.countPiece_of_discharging hdischarging).trans ?_
      rw [SortUnit.joinPre, Stacker.joinPre_of_full (Stacker.preFull_iff.mpr hfull)]
  case closeStack =>
    intro k hcollecting hcount none' record closed
    have hexec := exec_closeStack_of_closing hline hsort hb hcollecting hcount
    refine ⟨fun hroom => ?_, fun old rest htally hfull => ?_, fun t ht => ?_⟩
    · rw [hexec, SortUnit.close_of_room hroom]
      rfl
    · rw [hexec, SortUnit.close_of_full htally hfull]
      rfl
    · rw [hexec, Host.Outcome.next.injEq] at ht
      rw [← ht]
      exact State.withSort_close_discharge hline hsort .operator

end Sys2Proof.Machine
end

section
/-! PROOFS. The decision of a piece at the sort unit (R152 to R158): its destination, the comparison with the last
route decision, and the placing of its actions. -/

namespace Sys2Proof.Machine

open Sys2Proof

variable {s : State}

/-! ### The piece's length and program (R152, R154) -/

theorem SortPiece.length_eq (p : SortPiece) : p.length
    = if p.sighted = true ∧ p.degraded = false then p.piece.measured.getD p.piece.nominal else p.piece.nominal :=
  if_congr (by simp) rfl rfl

theorem SortPiece.program_eq (p : SortPiece) (im : Image) : p.program im
    = if p.sighted = true ∧ p.degraded = false then (Image.profile im p.piece.profile).fold else .none :=
  if_congr (by simp) rfl rfl

/-! ### The destination (R156) -/

theorem runsOutEarly_iff {im : Image} {parked : Bool} {p : Piece} : runsOutEarly im parked p = true
    ↔ parked = true ∨ p.flags.stray = true ∨ (Image.profile im p.profile).identified = false
      ∨ (∀ c, (Image.profile im p.profile).stackClass = .stacker c → Image.byte im 0x0F8 ≤ c.val)
      ∨ ((p.flags.short = true ∨ p.flags.long = true) ∧ (Image.profile im p.profile).reject = true) := by
  unfold runsOutEarly
  cases hclass : (Image.profile im p.profile).stackClass with
  | runout => simp [hclass]
  | stacker c =>
    simp only [hclass, Dest.stacker.injEq, forall_eq', Bool.or_eq_true, Bool.and_eq_true, Bool.not_eq_true',
      decide_eq_true_eq, or_assoc]
    exact Iff.rfl

theorem Stacker.preOther_iff {k : Stacker} {profile : Nat} :
    k.preOther profile = true ↔ k.pre.count ≠ 0 ∧ k.pre.profile ≠ some profile := by
  simp [Stacker.preOther]

namespace SortUnit

variable {u : SortUnit} {im : Image} {parked : Bool} {p : SortPiece} {pulse : Timer} {c : StackerNo} {fs : List Int}

theorem destination_of_early (h : runsOutEarly im parked p.piece = true) :
    u.destination im parked p = ⟨.runout, [], []⟩ := if_pos h

theorem destination_of_impossible (h : runsOutEarly im parked p.piece = false)
    (hfirings : (foldArithmetic im u.actions (p.program im) p.length p.lateness).firings = none) :
    u.destination im parked p = ⟨.runout, [],
      (foldArithmetic im u.actions (p.program im) p.length p.lateness).details.map (foldFault p.piece)⟩ := by
  refine (if_neg (by simp [h])).trans ?_
  simp only [hfirings]

theorem destination_of_class (h : runsOutEarly im parked p.piece = false)
    (hfirings : (foldArithmetic im u.actions (p.program im) p.length p.lateness).firings = some fs)
    (hclass : (Image.profile im p.piece.profile).stackClass = .stacker c) :
    u.destination im parked p = stage6 im u p.piece c fs
      ((foldArithmetic im u.actions (p.program im) p.length p.lateness).details.map (foldFault p.piece)) := by
  refine (if_neg (by simp [h])).trans ?_
  simp only [hfirings, hclass]

end SortUnit

theorem stage6_of_full {im : Image} {u : SortUnit} {p : Piece} {c : StackerNo} {fs : List Int} {faults : List Occurrence}
    (hdischarging : (u.stackers.get c).discharging = true) (hfull : (u.stackers.get c).preFull im = true) :
    stage6 im u p c fs faults = ⟨.runout, fs, faults ++ [routeFault p 2]⟩ := if_pos (by simp [hdischarging, hfull])

theorem stage6_of_other {im : Image} {u : SortUnit} {p : Piece} {c : StackerNo} {fs : List Int} {faults : List Occurrence}
    (hdischarging : (u.stackers.get c).discharging = true) (hfull : (u.stackers.get c).preFull im = false)
    (hother : (u.stackers.get c).preOther p.profile = true) :
    stage6 im u p c fs faults = ⟨.runout, fs, faults ++ [routeFault p 3]⟩ :=
  (if_neg (by simp [hfull])).trans (if_pos (by simp [hdischarging, hother]))

theorem stage6_of_free {im : Image} {u : SortUnit} {p : Piece} {c : StackerNo} {fs : List Int} {faults : List Occurrence}
    (hfree : (u.stackers.get c).discharging = false
      ∨ (u.stackers.get c).preFull im = false ∧ (u.stackers.get c).preOther p.profile = false) :
    stage6 im u p c fs faults = ⟨.stacker c, fs, faults⟩ := by
  rcases hfree with h | ⟨hfull, hother⟩
  · exact (if_neg (by simp [h])).trans (if_neg (by simp [h]))
  · exact (if_neg (by simp [hfull])).trans (if_neg (by simp [hother]))

/-! ### The comparison with the last route decision (R157) -/

theorem compareRoute_of_kept {im : Image} {parked : Bool} {last d : Dest} {g l lateness : Nat}
    (h : parked = true ∨ d = last) : compareRoute im parked last d g l lateness = ⟨d, last, false, []⟩ := by
  unfold compareRoute
  split_ifs with hparked hsame
  · rfl
  · rfl
  · exact absurd h (by simp [hparked, hsame])
  · exact absurd h (by simp [hparked, hsame])

theorem compareRoute_of_switch {im : Image} {last d : Dest} {g l lateness : Nat} (hd : d ≠ last)
    (hgap : Image.switchGap im ≤ g) : compareRoute im false last d g l lateness = ⟨d, d, false,
      [⟨.setRoute d, max 0 ((Image.diverter im : Int) - Image.switchGap im - l - lateness)⟩]⟩ :=
  (if_neg hd).trans (if_pos hgap)

theorem compareRoute_of_close {im : Image} {last d : Dest} {g l lateness : Nat} (hd : d ≠ last)
    (hgap : g < Image.switchGap im) : compareRoute im false last d g l lateness = ⟨last, last, true, []⟩ :=
  (if_neg hd).trans (if_neg (Nat.not_le.mpr hgap))

/-! ### The actions (R157, R158) -/

theorem bladeActions_eq (d : Dest) (fs : List Int) :
    bladeActions d fs = if d = .runout then [] else fs.map fun n => ⟨.fireBlade, n⟩ := by
  cases d <;> rfl

theorem needPlaces_eq (new : List Action) : needPlaces new = new.filter fun a => a.countdown ≠ 0 :=
  List.filter_congr fun a _ => by simp [bne, Bool.beq_eq_decide_eq]

/-! ### The decision (R152 to R158) -/

namespace SortUnit

variable {u : SortUnit} {im : Image} {parked : Bool} {p : SortPiece} {pulse : Timer} {r : RouteOutcome} {new : List Action}

theorem decide_of_room (hr : compareRoute im parked u.lastRoute (u.destination im parked p).dest
      (if p.sighted then u.entryGap else 0) p.length p.lateness = r)
    (hnew : r.setRoute ++ bladeActions r.counted (u.destination im parked p).firings = new)
    (hroom : u.actions.length + (new.filter fun a => a.countdown ≠ 0).length ≤ 16) :
    u.decide im parked pulse p =
      ({ (({ u with lastRoute := r.lastRoute }.place pulse new).count im r.counted p.piece r.mixed).1 with entryGap := 0 },
        (u.destination im parked p).faults ++ (if r.mixed then [routeFault p.piece 1] else [])
          ++ (({ u with lastRoute := r.lastRoute }.place pulse new).count im r.counted p.piece r.mixed).2) := by
  subst hr hnew
  exact if_pos (hasRoom_iff.mpr (by rw [needPlaces_eq]; exact hroom))

theorem decide_of_no_room (hr : compareRoute im parked u.lastRoute (u.destination im parked p).dest
      (if p.sighted then u.entryGap else 0) p.length p.lateness = r)
    (hnew : r.setRoute ++ bladeActions r.counted (u.destination im parked p).firings = new)
    (hroom : ¬ u.actions.length + (new.filter fun a => a.countdown ≠ 0).length ≤ 16) :
    u.decide im parked pulse p =
      ({ (u.count im u.lastRoute p.piece true).1 with entryGap := 0 },
        (u.destination im parked p).faults ++ [routeFault p.piece (if r.mixed then 1 else 4)]
          ++ (u.count im u.lastRoute p.piece true).2) := by
  subst hr hnew
  refine (if_neg fun h => hroom (by rw [← needPlaces_eq]; exact hasRoom_iff.mp h)).trans ?_
  cases (compareRoute im parked u.lastRoute (u.destination im parked p).dest
      (if p.sighted then u.entryGap else 0) p.length p.lateness).mixed <;> simp

theorem place_cons (a : Action) (rest : List Action) :
    u.place pulse (a :: rest) = SortUnit.place
      (if a.countdown ≠ 0 then { u with actions := insertAction a u.actions } else u.perform pulse a.kind) pulse rest := by
  by_cases h : a.countdown = 0 <;> simp [place, h]

end SortUnit

/-! ### In the station -/

theorem State.sortPiece_of_onLine (hline : s.onLine = true) (hsort : s.role = some .sort) (p : SortPiece) :
    s.sortPiece p = s.withSort (s.sort.decide s.image s.parked s.bladePulse p) :=
  if_pos (State.onLineAs_iff.mpr ⟨hline, hsort⟩)

/-- Settles O40: the destination, the route comparison and the room in the action list are decided one after the
other, and each outcome of the three gives the whole decision. -/
theorem sortDecision : Obligations.SortDecision := by
  refine ⟨fun s p => ⟨fun hstate hsort => ?_, fun h => if_neg fun hline => ?_, fun q => rfl⟩, fun u im parked pulse p => ?_⟩
  · exact State.sortPiece_of_onLine (State.onLine_iff.mpr hstate) hsort p
  · obtain ⟨hon, hsort⟩ := State.onLineAs_iff.mp hline
    exact h.elim (fun hstate => hstate (State.onLine_iff.mp hon)) fun hrole => hrole hsort
  intro q v found whole f folds route early gap counted blades switching room refused
  have hearly : runsOutEarly im parked p.piece = true ↔ early := runsOutEarly_iff
  have hlate (h : ¬ early) : runsOutEarly im parked p.piece = false := by
    rw [← Bool.not_eq_true, hearly]; exact h
  have hf : foldArithmetic im u.actions (p.program im) p.length p.lateness = f := by
    rw [p.length_eq, p.program_eq]
  have hblades (d : Dest) : bladeActions d found.firings = blades d := bladeActions_eq d _
  refine ⟨fun h => SortUnit.destination_of_early (hearly.mpr h), fun h hnone => ?_, fun c fs h hfs hclass => ?_,
    fun hkept => ?_, fun hparked hd hgap => ?_, fun hparked hd hgap => ?_, rfl, fun a rest => ?_⟩
  · rw [← hf] at hnone
    exact (SortUnit.destination_of_impossible (hlate h) hnone).trans (by rw [hf]; rfl)
  · intro k full other
    have hfull : k.preFull im = true ↔ full := Stacker.preFull_iff
    have hother : k.preOther q.profile = true ↔ other := Stacker.preOther_iff
    have hfound : found = stage6 im u p.piece c fs folds := by
      rw [← hf] at hfs
      exact (SortUnit.destination_of_class (hlate h) hfs hclass).trans (by rw [hf]; rfl)
    rw [← hfull, ← hother, Bool.not_eq_true, Bool.not_eq_true, hfound]
    exact ⟨stage6_of_full, stage6_of_other, stage6_of_free⟩
  · have hr := compareRoute_of_kept (im := im) (g := gap) (l := p.length) (lateness := p.lateness) hkept
    refine ⟨fun hroom => ?_, fun hroom => ?_⟩
    · exact (SortUnit.decide_of_room hr (hblades _) hroom).trans (by rw [if_neg Bool.false_ne_true, List.append_nil])
    · exact SortUnit.decide_of_no_room hr (hblades _) hroom
  · subst hparked
    have hr := compareRoute_of_switch (im := im) (g := gap) (l := p.length) (lateness := p.lateness) hd hgap
    have hnew : [⟨.setRoute found.dest,
        max 0 ((Image.diverter im : Int) - Image.switchGap im - p.length - p.lateness)⟩]
        ++ bladeActions found.dest found.firings = switching := by
      rw [hblades, p.length_eq]; rfl
    refine ⟨fun hroom => ?_, fun hroom => ?_⟩
    · exact (SortUnit.decide_of_room hr hnew hroom).trans (by rw [if_neg Bool.false_ne_true, List.append_nil])
    · exact SortUnit.decide_of_no_room hr hnew hroom
  · subst hparked
    have hr := compareRoute_of_close (im := im) (g := gap) (l := p.length) (lateness := p.lateness) hd hgap
    refine ⟨fun hroom => ?_, fun hroom => ?_⟩
    · exact SortUnit.decide_of_room hr (hblades _) hroom
    · exact SortUnit.decide_of_no_room hr (hblades _) hroom
  · rw [SortUnit.place_cons]
    cases hkind : a.kind <;> rfl

end Sys2Proof.Machine
end

section
/-! PROOFS. Patience and the hole it asks for (R138, R139, R142, R143), and the belt map on a travel advance (R127, R131,
R150, R151). -/

namespace Sys2Proof.Machine

open Sys2Proof

variable {s : State}

/-! ### Patience (R138, R139, R142, R143) -/

theorem State.ownHole_isNone_iff : s.ownHole.isNone = true ↔ ¬ ∃ x ∈ s.feed.map, x.kind = .ownHole := by
  rw [← ownHoleOf_isSome_iff, State.ownHole]
  cases ownHoleOf s.feed.map <;> simp

/-- The addition alone, before the request it may bring (R139). -/
def State.waited (s : State) (d : Int) : State :=
  { s with feed := { s.feed with patience := heldSum s.feed.patience d } }

/-- The head record waits for the belt alone (R139). -/
def State.WaitsForBelt (s : State) (p : Piece) : Prop :=
  s.feed.handshake = .ready ∧ s.lineAllows = true ∧ ¬ s.dropTest p = true

theorem State.addPatience_of_empty {d : Int} (h : s.feed.queue = []) : s.addPatience d = s := by
  rw [State.addPatience, h]

theorem State.addPatience_of_head {d : Int} {p : Piece} {rest : List Piece} (h : s.feed.queue = p :: rest) :
    s.addPatience d = if s.feed.handshake = .ready ∧ s.lineAllows ∧ ¬ s.dropTest p then
      if 1 ≤ Image.patience s.image ∧ Image.patience s.image ≤ (s.waited d).feed.patience ∧ (s.waited d).ownHole.isNone then
        (s.waited d).chooseHole p
      else s.waited d
    else s := by
  rw [State.addPatience, h]
  simp only [State.waited, addTravel_eq_heldSum]
  rfl

theorem State.retryWithdraw_of_not_abandoned (h : s.hole.frame ≠ .abandoned) : s.retryWithdraw = s := if_neg h

theorem State.retryWithdraw_of_inSend (hsome : ∃ y ∈ s.port.queue, y.notice.code = 6)
    (h : ∀ y ∈ s.port.queue, y.notice.code = 6 → y.inSend = true) : s.retryWithdraw = s := by
  unfold State.retryWithdraw
  rw [State.withdraw_of_inSend hsome h]
  exact ite_self _

theorem State.retryWithdraw_of_waiting (hframe : s.hole.frame = .abandoned)
    (h : ∀ y ∈ s.port.queue, y.notice.code = 6 → y.inSend = false) :
    s.retryWithdraw = { s.withQueue (s.port.queue.filter fun y => y.notice.code ≠ 6) with
      hole := { s.hole with frame := .none } } := by
  rw [State.retryWithdraw, if_pos hframe, State.withdraw_of_waiting h]
  rfl

theorem State.chooseHole_of_inSend {p : Piece} (hframe : s.hole.frame = .abandoned)
    (hsome : ∃ y ∈ s.port.queue, y.notice.code = 6) (h : ∀ y ∈ s.port.queue, y.notice.code = 6 → y.inSend = true) :
    s.chooseHole p = s := by
  unfold State.chooseHole
  split_ifs
  · rfl
  · rw [hframe, State.retryWithdraw_of_inSend hsome h]
    exact if_neg (by simp [hframe])

theorem State.chooseHole_of_none {p : Piece} (hown : s.ownHole.isNone = true) (hframe : s.hole.frame = .none) :
    s.chooseHole p = s.lookForHole p := by
  unfold State.chooseHole
  rw [if_neg (by simpa using hown), hframe]

theorem State.lookForHole_of_none {p : Piece} (h : holeHead s.image s.feed.map p.mask
      ((s.headProfile p).gapBefore + p.nominal + (s.headProfile p).gapAfter) = none) :
    s.lookForHole p = s.restartPatience := by
  simp only [State.lookForHole, h]

theorem State.lookForHole_of_some {p : Piece} {a : Int} (h : holeHead s.image s.feed.map p.mask
      ((s.headProfile p).gapBefore + p.nominal + (s.headProfile p).gapAfter) = some a) :
    s.lookForHole p = s.openHole p ⟨(s.headProfile p).gapBefore, p.nominal, (s.headProfile p).gapAfter⟩ a := by
  simp only [State.lookForHole, h]

theorem State.openHole_of_room {p : Piece} {f : Fit} {a : Int} (hmap : s.feed.map.length < 24)
    (hactive : s.port.active = true) (hroom : s.port.queue.length < 8) :
    s.openHole p f a = State.queued
      { s with
        feed := { s.feed with map := Machine.insertStretch ⟨.ownHole, Image.address s.image, none, p.mask, a,
          f.gapBefore + f.nominal + f.gapAfter, false, false⟩ s.feed.map }
        hole := ⟨some f, .current⟩ }
      (.hole p.mask a.toNat (f.gapBefore + f.nominal + f.gapAfter) ⟨0, false⟩) := by
  refine (if_pos (mapHasRoom_iff.mpr hmap)).trans ?_
  rw [State.insertStretch_of_room (mapHasRoom_iff.mpr hmap)]
  exact State.add_eq_queued (by exact hactive) (by exact hroom)

theorem State.openHole_of_full {p : Piece} {f : Fit} {a : Int} (hmap : 24 ≤ s.feed.map.length) :
    s.openHole p f a = (s.occur ⟨.listFull, none, soleLane p.mask, detail16 a⟩).restartPatience := by
  have hfull : ¬ mapHasRoom s.feed.map = true := fun hroom => Nat.not_lt.mpr hmap (mapHasRoom_iff.mp hroom)
  refine (if_neg hfull).trans ?_
  rw [State.insertStretch_of_full hfull]

/-- Settles O19: the addition is made where the head waits for the belt alone, and the request follows its four
conditions (R139, R142). -/
theorem patienceAsksForHole : Obligations.PatienceAsksForHole := by
  intro s d hd
  refine ⟨State.addPatience_of_empty, fun p rest hqueue => ?_⟩
  intro n v h limit found waits waiting held
  have hhead := State.addPatience_of_head (d := d) hqueue
  have hwaiting : (s.feed.handshake = .ready ∧ s.lineAllows ∧ ¬ s.dropTest p) ↔ waiting := by
    rw [State.lineAllows_iff, Bool.not_eq_true]
    simp only [waiting, and_assoc]
  have hnone : (s.waited d).ownHole.isNone = true ↔ ¬ held := State.ownHole_isNone_iff
  rw [hhead, if_congr hwaiting rfl rfl]
  refine ⟨fun hw => if_neg hw, fun hw hquiet => ?quiet, fun hw hframe hsome hsent => ?sent,
    fun hw hpos hreached hown hframe => ?asks⟩
  case quiet =>
    refine (if_pos hw).trans (if_neg fun ⟨hpos, hreached, hown⟩ => ?_)
    rcases hquiet with hzero | hshort | hheld
    · exact absurd (hzero.symm.trans_ge hpos) (by decide)
    · exact Nat.not_lt.mpr hreached hshort
    · exact hnone.mp hown hheld
  case sent =>
    refine (if_pos hw).trans ?_
    rw [State.chooseHole_of_inSend (by exact hframe) (by exact hsome) (by exact hsent)]
    exact ite_self _
  case asks =>
    rw [if_pos hw, if_pos ⟨hpos, hreached, hnone.mpr hown⟩, State.chooseHole_of_none (hnone.mpr hown) (by exact hframe)]
    refine ⟨fun hfound => ?_, fun a hfound hmap hactive hroom => ?_, fun a hfound hmap => ?_⟩
    · exact State.lookForHole_of_none (s := s.waited d) hfound
    · rw [State.lookForHole_of_some (s := s.waited d) hfound]
      exact State.openHole_of_room (by exact hmap) (by exact hactive) (by exact hroom)
    · rw [State.lookForHole_of_some (s := s.waited d) hfound]
      exact State.openHole_of_full (by exact hmap)

end Sys2Proof.Machine
end

section
/-! PROOFS. The belt map on a travel advance, the end of a spent own hole, and a belt eye that becomes STUCK (R98, R127,
R131, R150, R151). -/

namespace Sys2Proof.Machine

open Sys2Proof

variable {s : State}

/-! ### An eye becoming STUCK (R98, R131) -/

theorem Eye.goesStuck_iff {e : Eye} {im : Image} : e.goesStuck im = true
    ↔ e.blocked = true ∧ (e.state = .normal ∨ e.state = .suspect) ∧ Image.word im 0x00A < e.blockedRun := by
  simp only [Eye.goesStuck, Bool.and_eq_true, Bool.or_eq_true, beq_iff_eq, decide_eq_true_eq, and_assoc]
  exact Iff.rfl

theorem State.testStuck_of_not {k : Lane} (h : ¬ (s.eyes.get k).goesStuck s.image = true) : s.testStuck k = s := if_neg h

/-- The station whose eye of lane k has become STUCK, with the occurrence taken (R98). -/
def State.stuckEye (s : State) (k : Lane) (tag : Option Tag) : State :=
  State.occur { s with eyes := s.eyes.set k { s.eyes.get k with state := .stuck } }
    ⟨.eyeStuck, tag, some k, BitVec.ofNat 16 (s.eyes.get k).blockedRun⟩

theorem State.stuckEye_role (k : Lane) (tag : Option Tag) : (s.stuckEye k tag).role = s.role :=
  (State.occur_quiet _ _).role

theorem State.testStuck_of_goes {k : Lane} (h : (s.eyes.get k).goesStuck s.image = true) :
    s.testStuck k = (s.stuckEye k (if s.tracks then s.tracker.blockedTag k else none)).laneStuck k := if_pos h

theorem State.tracks_iff : s.tracks = true ↔ s.role = some .check ∨ s.role = some .sort := by
  simp [State.tracks]

theorem State.tracks_of_feed (h : s.role = some .feed) : s.tracks = false := by
  rw [← Bool.not_eq_true, State.tracks_iff, h]
  simp

theorem State.laneStuck_of_feed {k : Lane} (h : s.role = some .feed) : s.laneStuck k = s.endGrowing k := by
  rw [State.laneStuck, h]

theorem State.laneStuck_of_tracks {k : Lane} (h : s.tracks = true) : s.laneStuck k = s.unblock k true := by
  rcases State.tracks_iff.mp h with h | h <;> rw [State.laneStuck, h]

theorem State.endGrowing_eq (k : Lane) : s.endGrowing k = { s with
    feed := { s.feed with
      map := s.feed.map.map fun (x : Stretch) =>
        if x.growing = true ∧ x.mask.getLsbD k.val = true then { x with growing := false } else x } } := by
  simp only [State.endGrowing, hasLane, Bool.and_eq_true]

/-! ### The belt map moved (R127, R150, R151) -/

/-- The tail test of a forward advance (R127). -/
def State.keptAfter (s : State) (d : Int) : State :=
  { s with feed := { s.feed with
      map := if 0 < d then s.feed.map.filter fun x => decide (0 ≤ x.head + x.length) else s.feed.map } }

theorem State.moveMap_of_forward {d : Int} (h : 0 < d) :
    s.moveMap d = (s.mapMoved d).spendHole.retryWithdraw.keptAfter d := by
  rw [State.moveMap_eq, if_pos h, State.keptAfter, if_pos h]
  rfl

theorem State.moveMap_of_reverse {d : Int} (h : ¬ 0 < d) :
    s.moveMap d = (s.mapMoved d).retryWithdraw.keptAfter d := by
  rw [State.moveMap_eq, if_neg h, State.keptAfter, if_neg h]

theorem State.holeSpent_iff : s.holeSpent = true
    ↔ ∃ x f, s.ownHole = some x ∧ s.hole.fit = some f ∧ x.head + x.length < (f.nominal : Int) + f.gapAfter := by
  unfold State.holeSpent
  cases hown : s.ownHole with
  | none => simp
  | some x =>
    cases hfit : s.hole.fit with
    | none => simp
    | some f =>
      simp only [Option.some.injEq, exists_and_left, exists_eq_left', decide_eq_true_eq]
      exact Iff.rfl

theorem State.spendHole_of_not (h : ¬ s.holeSpent = true) : s.spendHole = s := if_neg h

theorem State.spendHole_of_spent (h : s.holeSpent = true) :
    s.spendHole = s.dropOwnHole.withdrawEnded.restartPatience := if_pos h

theorem State.mem_of_ownHole {x : Stretch} (h : s.ownHole = some x) : x ∈ s.feed.map ∧ x.kind = .ownHole :=
  ⟨List.mem_of_find?_eq_some h, by simpa using List.find?_some h⟩

/-- Where no own hole is spent, the map moves and an abandoned HOLE is withdrawn again. -/
theorem State.moveMap_of_not_spent {d : Int} (h : 0 < d → ¬ (s.mapMoved d).holeSpent = true) :
    s.moveMap d = (s.mapMoved d).retryWithdraw.keptAfter d := by
  by_cases hd : 0 < d
  · rw [State.moveMap_of_forward hd, State.spendHole_of_not (h hd)]
  · exact State.moveMap_of_reverse hd

theorem ownHoleOf_middle {l r : List Stretch} {x : Stretch} (hx : x.kind = .ownHole) (hl : ∀ y ∈ l, y.kind ≠ .ownHole) :
    ownHoleOf (l ++ x :: r) = some x := by
  have hnone : l.find? (fun y => y.kind == .ownHole) = none := List.find?_eq_none.mpr (by simpa using hl)
  rw [ownHoleOf, List.find?_append, hnone, Option.none_or]
  exact List.find?_cons_of_pos (by simp [hx])

theorem withoutOwnHole_middle {l r : List Stretch} {x : Stretch} (hx : x.kind = .ownHole)
    (h : ∀ y ∈ l ++ r, y.kind ≠ .ownHole) : withoutOwnHole (l ++ x :: r) = l ++ r := by
  have hkept : (l ++ r).filter (fun z => decide (z.kind ≠ .ownHole)) = l ++ r :=
    List.filter_eq_self.mpr fun y hy => decide_eq_true (h y hy)
  rw [withoutOwnHole_eq, List.filter_append, List.filter_cons_of_neg (by simp [hx]), ← List.filter_append, hkept]

/-- The only own hole of the moved map, spent: it leaves, and its HOLE is withdrawn or abandoned (R150). -/
theorem State.moveMap_of_spent {d : Int} {l r : List Stretch} {x : Stretch} {f : Fit} (hd : 0 < d)
    (hmap : (s.mapMoved d).feed.map = l ++ x :: r) (hx : x.kind = .ownHole) (hrest : ∀ y ∈ l ++ r, y.kind ≠ .ownHole)
    (hfit : s.hole.fit = some f) (hspent : x.head + x.length < (f.nominal : Int) + f.gapAfter) :
    s.moveMap d = (State.restartPatience (State.withdrawEnded
      { s with feed := { s.feed with map := l ++ r }, hole := { s.hole with fit := none } })).retryWithdraw.keptAfter d := by
  have hown : (s.mapMoved d).ownHole = some x := by
    rw [State.ownHole, hmap]
    exact ownHoleOf_middle hx fun y hy => hrest y (List.mem_append_left r hy)
  have hdrop : (s.mapMoved d).dropOwnHole
      = { s with feed := { s.feed with map := l ++ r }, hole := { s.hole with fit := none } } := by
    rw [State.dropOwnHole, hmap, withoutOwnHole_middle hx hrest]
    rfl
  rw [State.moveMap_of_forward hd, State.spendHole_of_spent (State.holeSpent_iff.mpr ⟨x, f, hown, hfit, hspent⟩), hdrop]

theorem State.mapMoved_not_spent {d : Int} (h : ∀ x ∈ s.feed.map, x.kind ≠ .ownHole) :
    ¬ (s.mapMoved d).holeSpent = true := by
  intro hspent
  obtain ⟨x, f, hown, -, -⟩ := State.holeSpent_iff.mp hspent
  obtain ⟨hmem, hkind⟩ := State.mem_of_ownHole hown
  obtain ⟨y, hy, hyx⟩ := List.mem_map.mp hmem
  refine h y hy ?_
  rw [← hkind, ← hyx, Stretch.grow_kind]
  rfl

theorem State.moveFeed_of_feed {d : Int} (h : s.role = some .feed) : s.moveFeed d = s.moveMap d := if_pos h

/-- The advance at a FEED station (R6, R127, R134, R139). -/
theorem State.travelAdvance_of_feed {d : Int} (h : s.role = some .feed) : s.travelAdvance d =
    if 0 < d then (lanes.foldl State.testStuck ((s.moveAll d).moveMap d)).evalDrop.addPatience d
    else ((s.moveAll d).moveMap d).evalDrop := by
  have hmoved : ((s.moveAll d).moveMap d).role = some .feed :=
    (State.moveMap_within (s.moveAll d) d).role.trans h
  have htested : (lanes.foldl State.testStuck ((s.moveAll d).moveMap d)).role = some .feed :=
    (within_foldl State.testStuck State.testStuck_within lanes _).role.trans hmoved
  have hevents : ((s.moveAll d).moveMap d).forwardEvents = lanes.foldl State.testStuck ((s.moveAll d).moveMap d) :=
    if_neg (by rw [State.tracks_of_feed htested]; exact Bool.false_ne_true)
  unfold State.travelAdvance
  rw [State.moveFeed_of_feed (by exact h)]
  by_cases hd : 0 < d
  · simp only [if_pos hd, hevents]
    exact if_pos htested
  · simp only [if_neg hd]
    exact if_pos hmoved

theorem Stretch.move_eq (x : Stretch) (eyes : Quad Eye) (d : Int) : (x.advance d).grow eyes =
    { x with
      head := max (-32768) (min 32767 (x.head - d))
      length := ((x.advance d).grow eyes).length } := by
  unfold Stretch.grow
  split <;> rfl

theorem Stretch.grow_of_not {x : Stretch} {eyes : Quad Eye} (h : x.growing = false ∨ soleLane x.mask = none) :
    x.grow eyes = x := by
  unfold Stretch.grow
  split
  next hgrowing hlane => rcases h with h | h <;> simp_all
  · rfl
  · rfl

theorem Stretch.grow_of_lane {x : Stretch} {eyes : Quad Eye} {k : Lane} (hgrowing : x.growing = true)
    (hlane : soleLane x.mask = some k) : x.grow eyes = { x with length := (eyes.get k).blockedRun } := by
  rw [Stretch.grow, hgrowing, hlane]

/-- Settles O18: the move of the map, the own hole that it may spend, and the order of the advance at a FEED
station. -/
theorem beltMapAdvances : Obligations.BeltMapAdvances := by
  refine ⟨fun s k hrole => ?stuck, fun s d => ?moves⟩
  case stuck =>
    intro e goes
    have hgoes : e.goesStuck s.image = true ↔ goes := Eye.goesStuck_iff
    refine ⟨fun h => State.testStuck_of_not (mt hgoes.mp h), fun h => ?_⟩
    rw [State.testStuck_of_goes (hgoes.mpr h), State.tracks_of_feed hrole, if_neg Bool.false_ne_true,
      State.laneStuck_of_feed ((State.stuckEye_role _ _).trans hrole), State.endGrowing_eq]
    rfl
  case moves =>
    intro moved kept mapped noHoleSent holeSent noHoles
    have hmoved : (s.mapMoved d).feed.map = moved := by
      refine List.map_congr_left fun x _ => ?_
      refine (Stretch.move_eq x s.eyes d).trans ?_
      congr 1
      cases hgrowing : x.growing with
      | false => exact (congrArg Stretch.length (Stretch.grow_of_not (x := x.advance d) (.inl hgrowing)) :)
      | true =>
        cases hlane : soleLane x.mask with
        | none => exact (congrArg Stretch.length (Stretch.grow_of_not (x := x.advance d) (.inr hlane)) :)
        | some k => exact congrArg Stretch.length (Stretch.grow_of_lane (x := x.advance d) hgrowing hlane)
    have hmapped : (s.mapMoved d).keptAfter d = mapped := by
      rw [State.keptAfter, hmoved]; rfl
    refine ⟨fun hframe hfits => ?_, fun hframe hnone => ⟨fun hsent => ?_, fun hwaiting => ?_⟩,
      fun l x r f hsplit hx hrest hfit hd hspent => ?_, State.travelAdvance_of_feed⟩
    · have hnot : 0 < d → ¬ (s.mapMoved d).holeSpent = true := by
        intro hd hspent
        obtain ⟨x, f, hown, hfit, hlt⟩ := State.holeSpent_iff.mp hspent
        obtain ⟨hmem, hkind⟩ := State.mem_of_ownHole hown
        exact absurd (hfits hd x (hmoved ▸ hmem) hkind f hfit) (Int.not_le.mpr hlt)
      rw [State.moveMap_of_not_spent hnot, State.retryWithdraw_of_not_abandoned (by exact hframe), hmapped]
    · rw [State.moveMap_of_not_spent fun _ => State.mapMoved_not_spent hnone, State.retryWithdraw_of_inSend (by exact hsent.1)
        (by exact hsent.2), hmapped]
    · rw [State.moveMap_of_not_spent fun _ => State.mapMoved_not_spent hnone, State.retryWithdraw_of_waiting
        (by exact hframe) (by exact hwaiting), ← hmapped]
      rfl
    · intro spent
      rw [State.moveMap_of_spent hd (hmoved.trans hsplit) hx hrest hfit hspent]
      refine ⟨fun hframe => ?_, fun hframe hwaiting => ?_, fun hframe hsent => ?_⟩
      · rw [State.withdrawEnded_of_not_current (by simp [hframe]),
          State.retryWithdraw_of_not_abandoned (by simp [State.restartPatience, hframe])]
        simp only [State.keptAfter, State.restartPatience, hframe]
        rfl
      · rw [State.withdrawEnded_of_waiting (by exact hframe) (by exact hwaiting),
          State.retryWithdraw_of_not_abandoned (by simp [State.restartPatience])]
        rfl
      · rw [State.withdrawEnded_of_inSend (by exact hframe) (by exact hsent.1) (by exact hsent.2),
          State.retryWithdraw_of_inSend (by exact hsent.1) (by exact hsent.2)]
        rfl

end Sys2Proof.Machine
end

section
/-! PROOFS. What a DROP and a HOLE bring at a FEED station (R129, R145 to R147). -/

namespace Sys2Proof.Machine

open Sys2Proof

variable {s t u : State}

/-! ### The drop test after a frame (R134) -/

/-- No park has ended and the halt set has not become empty: of the causes of R134 only a change of the map is left. -/
structure HoldsOff (s t : State) : Prop where
  parked : s.parked = true → t.parked = true
  halted : s.control.haltSet ≠ 0 → t.control.haltSet ≠ 0

theorem HoldsOff.of_same (hparked : t.parked = s.parked) (hset : t.control.haltSet = s.control.haltSet) : HoldsOff s t :=
  ⟨fun h => hparked.trans h, fun h => hset ▸ h⟩

theorem HoldsOff.trans (h : HoldsOff s t) (h' : HoldsOff t u) : HoldsOff s u :=
  ⟨h'.parked ∘ h.parked, h'.halted ∘ h.halted⟩

theorem reviewDrop_of_holdsOff (h : HoldsOff s t) :
    reviewDrop s t = if t.feed.map = s.feed.map then t else t.evalDrop := by
  have hpark : (s.parked && !t.parked) = false := by
    cases hs : s.parked with
    | false => rfl
    | true => rw [h.parked hs]; rfl
  have hhalt : (!s.noHalt && t.noHalt) = false := by
    have := h.halted
    rw [← Bool.not_eq_true]
    simpa [State.noHalt] using this
  rw [reviewDrop, hpark, hhalt, Bool.or_self, Bool.false_or]
  by_cases hmap : t.feed.map = s.feed.map
  · rw [if_pos hmap, if_neg (by simp [hmap])]
  · rw [if_neg hmap, if_pos (bne_iff_ne.mpr (Ne.symm hmap))]

theorem State.raiseOwnHalt_haltSet (r : Nat) (tag : Option Tag) : (s.raiseOwnHalt r tag).control.haltSet
    = s.control.haltSet ||| addressBit (Image.address s.image) := by
  cases hqueued : s.control.queued with
  | none =>
    have h : s.raiseOwnHalt r tag = State.addQuiet { s with
        control := { withHalt s.control (Image.address s.image) r tag with
          ownHalt := some ⟨r, tag⟩, queued := some .halt } } (.halt r tag) 0 :=
      State.announceQuiet_of_none (by exact hqueued)
    rw [h, State.addQuiet_control]
    rfl
  | some q =>
    rw [State.raiseOwnHalt_of_some hqueued]
    rfl

theorem State.raiseOwnHalt_holdsOff (r : Nat) (tag : Option Tag) : HoldsOff s (s.raiseOwnHalt r tag) := by
  refine ⟨(s.raiseOwnHalt_quiet r tag).parked (s.raiseOwnHalt_faults r tag), fun h hzero => h ?_⟩
  rw [State.raiseOwnHalt_haltSet] at hzero
  exact (BitVec.or_eq_zero_iff.mp hzero).1

/-- An occurrence ends no park and empties no halt set (R62, R65, R174). -/
theorem State.occur_holdsOff (o : Occurrence) : HoldsOff s (s.occur o) := by
  have hnoted : HoldsOff s (s.note o) := ⟨State.note_parked, fun h => by rw [State.note_control]; exact h⟩
  unfold State.occur
  split
  · unfold State.takeHaltRequest
    split
    · exact hnoted.trans (State.raiseOwnHalt_holdsOff _ _)
    · exact hnoted
  · exact hnoted

theorem State.insertStretch_holdsOff (x : Stretch) : HoldsOff s (s.insertStretch x) := by
  unfold State.insertStretch
  split
  · exact .of_same rfl rfl
  · exact State.occur_holdsOff _

theorem insertStretch_ne (x : Stretch) (m : List Stretch) : insertStretch x m ≠ m := by
  intro h
  have := congrArg List.length h
  simp at this

/-! ### The fields of a carried DROP and PASS (R188) -/

theorem carries.drop_profile_lt {bits : List Bool} {a p l : Nat} {t : Tag} {m : LaneSet} {b : Bool} {st : Stamp}
    (h : carries bits a (.drop t p m b l st)) : p < 16 := by
  obtain ⟨-, hnotice, -⟩ := h
  have hread := Option.some.inj ((noticeOf_drop ..).symm.trans hnotice)
  injection hread with _ hp
  rw [← hp]
  exact BitVec.isLt _

theorem carries.pass_profile_lt {bits : List Bool} {a p l : Nat} {t : Tag} {m : LaneSet} {f : Flags} {st : Stamp}
    (h : carries bits a (.pass t p m f l st)) : p < 16 := by
  obtain ⟨-, hnotice, -⟩ := h
  have hread := Option.some.inj ((noticeOf_pass ..).symm.trans hnotice)
  injection hread with _ hp
  rw [← hp]
  exact BitVec.isLt _

theorem peerTag_eq (t : Tag) : peerTag t = if 1 ≤ t.origin.toNat ∧ t.origin.toNat ≤ 15 then some t else none := by
  refine if_congr (and_congr_left fun _ => ?_) rfl rfl
  rw [Nat.one_le_iff_ne_zero, ne_eq, ne_eq, ← BitVec.toNat_inj]
  rfl

section
variable {mask : LaneSet} {tag : Tag} {p l : Nat}

theorem fieldCause_of_no_lane (h : mask = 0) : fieldCause mask tag p l = some 8 := if_pos h

theorem fieldCause_of_outside (h : mask ≠ 0) (houtside : tag.origin = 0 ∨ 6000 < l) : fieldCause mask tag p l = some 9 :=
  (if_neg h).trans (if_pos (houtside.imp id .inr))

theorem fieldCause_of_right (h : mask ≠ 0) (horigin : tag.origin ≠ 0) (hp : p < 16) (hl : l ≤ 6000) :
    fieldCause mask tag p l = none := by
  refine (if_neg h).trans (if_neg ?_)
  rintro (h | h | h)
  · exact horigin h
  · exact Nat.not_lt.mpr hp (Nat.lt_succ_of_le h)
  · exact Nat.not_lt.mpr hl h

end

/-! ### A DROP (R129) -/

section
variable {a ident : Nat} {o : Int} {tag : Tag} {p : Nat} {m : LaneSet} {l : Nat} {st : Stamp}

theorem State.feedDrop_of_upstream (h : o ≤ 0) : s.feedDrop a ident o tag p m l st = s := if_pos h

theorem State.feedDrop_of_cause {c : Nat} (ho : 0 < o)
    (hcause : fieldCause (m &&& Image.lanes s.image) tag p l = some c) :
    s.feedDrop a ident o tag p m l st = s.occur (peerFault c ident (peerTag tag)) := by
  refine (if_neg (Int.not_le.mpr ho)).trans ?_
  rw [hcause]

theorem State.feedDrop_of_right (ho : 0 < o) (hcause : fieldCause (m &&& Image.lanes s.image) tag p l = none) :
    s.feedDrop a ident o tag p m l st =
      if st.stale then s.occur ⟨.lateNotice, some tag, soleLane (m &&& Image.lanes s.image), detail16 (sat16 (o - 1023))⟩
      else if sat16 (o - st.age) + l < 0 then s
      else s.insertStretch ⟨.piece, a, some tag, m &&& Image.lanes s.image, sat16 (o - st.age), l, false, false⟩ := by
  refine (if_neg (Int.not_le.mpr ho)).trans ?_
  rw [hcause]
  rfl

end

theorem State.feedDrop_holdsOff (a ident : Nat) (o : Int) (tag : Tag) (p : Nat) (m : LaneSet) (l : Nat) (st : Stamp) :
    HoldsOff s (s.feedDrop a ident o tag p m l st) := by
  rcases le_or_gt o 0 with ho | ho
  · rw [State.feedDrop_of_upstream ho]
    exact .of_same rfl rfl
  · cases hcause : fieldCause (m &&& Image.lanes s.image) tag p l with
    | some c =>
      rw [State.feedDrop_of_cause ho hcause]
      exact State.occur_holdsOff _
    | none =>
      rw [State.feedDrop_of_right ho hcause]
      split_ifs
      · exact State.occur_holdsOff _
      · exact .of_same rfl rfl
      · exact State.insertStretch_holdsOff _

/-! ### A HOLE (R145 to R147) -/

theorem withoutReservation_eq (map : List Stretch) (owner : Nat) :
    withoutReservation map owner = map.filter fun y => decide (¬ (y.kind = .reserved ∧ y.owner = owner)) :=
  List.filter_congr fun y _ => by simp [Bool.beq_eq_decide_eq]

section
variable {x : Stretch}

theorem holeVoid_iff {map : List Stretch} {mask : LaneSet} {a b : Int} : holeVoid map mask a b = true
    ↔ ∃ y ∈ map, (y.kind = .reserved ∨ (y.kind = .ownHole ∧ y.confirmed = true))
        ∧ y.mask &&& mask ≠ 0 ∧ y.head ≤ b ∧ a ≤ y.head + y.length := by
  simp only [holeVoid, List.any_eq_true, Bool.and_eq_true, Bool.or_eq_true, beq_iff_eq, Stretch.meets_iff]

theorem holeYields_iff {map : List Stretch} {mask : LaneSet} {a b : Int} : holeYields map mask a b = true
    ↔ ∃ y ∈ map, y.kind = .ownHole ∧ y.confirmed = false
        ∧ y.mask &&& mask ≠ 0 ∧ y.head ≤ b ∧ a ≤ y.head + y.length := by
  simp only [holeYields, List.any_eq_true, Bool.and_eq_true, beq_iff_eq, Bool.not_eq_true', Stretch.meets_iff, and_assoc]

theorem State.yieldTo_of_waiting (h : ∀ y ∈ s.port.queue, y.notice.code = 6 → y.inSend = false)
    (hroom : (s.feed.map.filter fun y => y.kind ≠ .ownHole).length < 24) :
    s.yieldTo x = { s with
      port := { s.port with queue := s.port.queue.filter fun y => y.notice.code ≠ 6 }
      hole := ⟨none, .none⟩
      feed := { s.feed with
        map := Machine.insertStretch x (s.feed.map.filter fun y => y.kind ≠ .ownHole), patience := 0 } } := by
  rw [State.yieldTo, State.withdraw_of_waiting h, State.insertStretch_of_room (mapHasRoom_iff.mpr ?_)]
  · show State.restartPatience _ = _
    rw [State.dropOwnHole]
    simp only [withoutOwnHole_eq]
    rfl
  · show (withoutOwnHole s.feed.map).length < 24
    rw [withoutOwnHole_eq]
    exact hroom

theorem State.yieldTo_holdsOff : HoldsOff s (s.yieldTo x) := by
  unfold State.yieldTo
  have hinserted (u : State) (h : HoldsOff s u) : HoldsOff s (u.insertStretch x).restartPatience :=
    (h.trans (State.insertStretch_holdsOff x)).trans (.of_same rfl rfl)
  exact hinserted _ (.of_same rfl rfl)

end

section
variable {a ident : Nat} {o : Int} {m : LaneSet} {head l : Nat} {st : Stamp}

/-- The station without the sender's former reservation (R146). -/
def State.withoutFormer (s : State) (a : Nat) : State :=
  { s with feed := { s.feed with map := withoutReservation s.feed.map a } }

/-- The reservation that a HOLE of another station asks for (R146). -/
def reservation (a : Nat) (mask : LaneSet) (h : Int) (l : Nat) : Stretch := ⟨.reserved, a, none, mask, h, l, false, false⟩

theorem State.placeHole_eq (a : Nat) (mask : LaneSet) (h : Int) (l : Nat) : s.placeHole a mask h l =
    if h + l < 0 then s.withoutFormer a
    else if holeVoid (s.withoutFormer a).feed.map mask h (h + l) then s.withoutFormer a
    else if holeYields (s.withoutFormer a).feed.map mask h (h + l) then
      (s.withoutFormer a).yieldTo (reservation a mask h l)
    else (s.withoutFormer a).insertStretch (reservation a mask h l) := rfl

theorem State.placeHole_holdsOff (a : Nat) (mask : LaneSet) (h : Int) (l : Nat) : HoldsOff s (s.placeHole a mask h l) := by
  have hformer : HoldsOff s (s.withoutFormer a) := .of_same rfl rfl
  rw [State.placeHole_eq]
  split_ifs
  · exact hformer
  · exact hformer
  · exact hformer.trans State.yieldTo_holdsOff
  · exact hformer.trans (State.insertStretch_holdsOff _)

theorem State.feedHole_of_downstream (h : 0 ≤ o) : s.feedHole a ident o m head l st = s := if_pos h

theorem State.feedHole_of_no_lane (ho : o < 0) (hmask : m &&& Image.lanes s.image = 0) :
    s.feedHole a ident o m head l st = s.occur (peerFault 8 ident none) :=
  (if_neg (Int.not_le.mpr ho)).trans (if_pos hmask)

theorem State.feedHole_of_outside (ho : o < 0) (hmask : m &&& Image.lanes s.image ≠ 0) (h : 32767 < head ∨ 8046 < l) :
    s.feedHole a ident o m head l st = s.occur (peerFault 10 ident none) :=
  (if_neg (Int.not_le.mpr ho)).trans ((if_neg hmask).trans (if_pos h))

theorem State.feedHole_of_right (ho : o < 0) (hmask : m &&& Image.lanes s.image ≠ 0) (hhead : head ≤ 32767)
    (hl : l ≤ 8046) : s.feedHole a ident o m head l st =
      if st.stale then
        s.occur ⟨.lateNotice, none, soleLane (m &&& Image.lanes s.image), detail16 (sat16 (o + head - 1023))⟩
      else s.placeHole a (m &&& Image.lanes s.image) (sat16 (o + head - st.age)) l := by
  refine (if_neg (Int.not_le.mpr ho)).trans ((if_neg hmask).trans (if_neg ?_))
  rintro (h | h)
  · exact Nat.not_lt.mpr hhead h
  · exact Nat.not_lt.mpr hl h

theorem State.feedHole_holdsOff (a ident : Nat) (o : Int) (m : LaneSet) (head l : Nat) (st : Stamp) :
    HoldsOff s (s.feedHole a ident o m head l st) := by
  unfold State.feedHole
  simp only []
  split_ifs
  · exact .of_same rfl rfl
  · exact State.occur_holdsOff _
  · exact State.occur_holdsOff _
  · exact State.occur_holdsOff _
  · exact State.placeHole_holdsOff _ _ _ _

end

/-! ### The frames (R134) -/

section
variable {bits : List Bool} {failed : Bool} {a : Nat} {o : Int} {m : LaneSet}

theorem exec_drop_at_feed {t : Tag} {p l : Nat} {b : Bool} {st : Stamp} (hreading : s.reading failed)
    (hline : s.onLine = true) (hrole : s.role = some .feed) (hpeer : a ≠ Image.address s.image)
    (hoffset : Image.offsetOf s.image a = some o) (hbits : carries bits a (.drop t p m b l st)) :
    exec (.receivedFrameEnd bits) s
      = .next (if (s.waitIdle.feedDrop a (5 * 16 + a) o t p m l st).feed.map = s.feed.map then
          s.waitIdle.feedDrop a (5 * 16 + a) o t p m l st
        else (s.waitIdle.feedDrop a (5 * 16 + a) o t p m l st).evalDrop) := by
  have hhand : s.waitIdle.handNotice a (5 * 16 + a) (.drop t p m b l st)
      = s.waitIdle.feedDrop a (5 * 16 + a) o t p m l st := by
    have hoffset' : Image.offsetOf s.waitIdle.image a = some o := hoffset
    have hrole' : s.waitIdle.role = some .feed := hrole
    simp only [State.handNotice, hoffset', State.handDrop, hrole']
  refine (exec_receivedFrameEnd_of_peer hreading hline hpeer hbits).trans (congrArg Host.Outcome.next ?_)
  refine (congrArg (reviewDrop s) hhand).trans (reviewDrop_of_holdsOff ?_)
  exact (HoldsOff.of_same (s := s) (t := s.waitIdle) rfl rfl).trans (State.feedDrop_holdsOff _ _ _ _ _ _ _ _)

theorem exec_hole_at_feed {head l : Nat} {st : Stamp} (hreading : s.reading failed)
    (hline : s.onLine = true) (hrole : s.role = some .feed) (hpeer : a ≠ Image.address s.image)
    (hoffset : Image.offsetOf s.image a = some o) (hbits : carries bits a (.hole m head l st)) :
    exec (.receivedFrameEnd bits) s
      = .next (if (s.waitIdle.feedHole a (6 * 16 + a) o m head l st).feed.map = s.feed.map then
          s.waitIdle.feedHole a (6 * 16 + a) o m head l st
        else (s.waitIdle.feedHole a (6 * 16 + a) o m head l st).evalDrop) := by
  have hhand : s.waitIdle.handNotice a (6 * 16 + a) (.hole m head l st)
      = s.waitIdle.feedHole a (6 * 16 + a) o m head l st := by
    have hoffset' : Image.offsetOf s.waitIdle.image a = some o := hoffset
    have hrole' : s.waitIdle.role = some .feed := hrole
    simp only [State.handNotice, hoffset']
    exact if_pos hrole'
  refine (exec_receivedFrameEnd_of_peer hreading hline hpeer hbits).trans (congrArg Host.Outcome.next ?_)
  refine (congrArg (reviewDrop s) hhand).trans (reviewDrop_of_holdsOff ?_)
  exact (HoldsOff.of_same (s := s) (t := s.waitIdle) rfl rfl).trans (State.feedHole_holdsOff _ _ _ _ _ _ _)

end

/-- Settles O20: each check of R129 and R145, then the places a HOLE can take (R146, R147). -/
theorem noticesAtFeed : Obligations.NoticesAtFeed := by
  intro s bits failed a o m age stale hreading hline hrole hpeer hoffset mask waits held mapped tested told peer
  refine ⟨fun t p b l hbits => ?drop, fun head l hbits => ?hole⟩
  case drop =>
    intro tag h x
    have hexec : exec (.receivedFrameEnd bits) s = tested (waits.feedDrop a (5 * 16 + a) o t p m l ⟨age, stale⟩) :=
      exec_drop_at_feed hreading hline hrole hpeer hoffset hbits
    have hcause (ho : 0 < o) {c : Nat} (hc : fieldCause mask t p l = some c) :
        exec (.receivedFrameEnd bits) s = peer tag c 5 := by
      rw [hexec, State.feedDrop_of_cause (s := waits) ho hc, peerTag_eq]
      rfl
    refine ⟨fun ho => ?_, fun ho hmask => hcause ho (fieldCause_of_no_lane hmask),
      fun ho hmask houtside => hcause ho (fieldCause_of_outside hmask houtside), fun ho hmask horigin hl => ?_⟩
    · rw [hexec, State.feedDrop_of_upstream ho]
      exact congrArg _ (if_pos rfl)
    · have hright := fieldCause_of_right hmask horigin hbits.drop_profile_lt hl
      rw [hexec, State.feedDrop_of_right (s := waits) ho hright]
      refine ⟨fun hstale => ?_, fun hstale hpassed => ?_, fun hstale hkept hroom => ?_, fun hstale hkept hfull => ?_⟩
      · rw [if_pos hstale]
        rfl
      · rw [if_neg (by simp [hstale]), if_pos (by exact hpassed)]
        exact congrArg _ (if_pos rfl)
      · rw [if_neg (by simp [hstale]), if_neg (by exact Int.not_lt.mpr hkept),
          State.insertStretch_of_room (mapHasRoom_iff.mpr (by exact hroom))]
        exact congrArg _ (if_neg (insertStretch_ne x _))
      · rw [if_neg (by simp [hstale]), if_neg (by exact Int.not_lt.mpr hkept),
          State.insertStretch_of_full (s := waits) (fun hroom => Nat.not_lt.mpr hfull (mapHasRoom_iff.mp hroom))]
        rfl
  case hole =>
    intro h x former meets void yields
    have hexec : exec (.receivedFrameEnd bits) s = tested (waits.feedHole a (6 * 16 + a) o m head l ⟨age, stale⟩) :=
      exec_hole_at_feed hreading hline hrole hpeer hoffset hbits
    refine ⟨fun ho => ?_, fun ho hmask => ?_, fun ho hmask houtside => ?_, fun ho hmask hhead hl => ?_⟩
    · rw [hexec, State.feedHole_of_downstream ho]
      exact congrArg _ (if_pos rfl)
    · rw [hexec, State.feedHole_of_no_lane (s := waits) ho hmask]
      rfl
    · rw [hexec, State.feedHole_of_outside (s := waits) ho hmask houtside]
      rfl
    · have hformer : waits.withoutFormer a = mapped waits former := by
        rw [State.withoutFormer, withoutReservation_eq]
      have hvoid : holeVoid former mask h (h + l) = true ↔ void := holeVoid_iff
      have hyields : holeYields former mask h (h + l) = true ↔ yields := holeYields_iff
      have hplaced (hstale : stale = false) : waits.feedHole a (6 * 16 + a) o m head l ⟨age, stale⟩ =
          if h + l < 0 then mapped waits former
          else if void then mapped waits former
          else if yields then (mapped waits former).yieldTo x
          else (mapped waits former).insertStretch x := by
        rw [State.feedHole_of_right (s := waits) ho hmask hhead hl, if_neg (by simp [hstale]), State.placeHole_eq, hformer]
        exact if_congr Iff.rfl rfl (if_congr hvoid rfl (if_congr hyields rfl rfl))
      refine ⟨fun hstale => ?_, fun hstale hpassed => ?_, fun hstale hkept hnot hy hlength hwaiting => ?_,
        fun hstale hkept hnot hnoty hroom => ?_, fun hstale hkept hnot hnoty hfull => ?_⟩
      · rw [hexec, State.feedHole_of_right (s := waits) ho hmask hhead hl, if_pos hstale]
        rfl
      · rw [hexec, hplaced hstale]
        rcases hpassed with hpassed | hpassed
        · rw [if_pos hpassed]
        · rw [if_pos hpassed, ite_self]
      · rw [hexec, hplaced hstale, if_neg (Int.not_lt.mpr hkept), if_neg hnot, if_pos hy]
        obtain ⟨y, hmem, hown, -⟩ := hy
        have hshorter : (former.filter fun z => z.kind ≠ .ownHole).length < former.length :=
          List.length_filter_lt_length_iff_exists.mpr ⟨y, hmem, by simp [hown]⟩
        have hfewer : former.length ≤ s.feed.map.length := List.length_filter_le _ _
        rw [State.yieldTo_of_waiting (s := mapped waits former) hwaiting (by exact lt_of_lt_of_le hshorter (hfewer.trans hlength))]
      · have hentered : (mapped waits former).insertStretch x = mapped waits (insertStretch x former) :=
          State.insertStretch_of_room (mapHasRoom_iff.mpr (by exact hroom))
        rw [hexec, hplaced hstale, if_neg (Int.not_lt.mpr hkept), if_neg hnot, if_neg hnoty, hentered]
        refine ⟨rfl, fun hsame => congrArg _ (if_neg ?_)⟩
        show insertStretch x former ≠ s.feed.map
        rw [← hsame]
        exact insertStretch_ne x former
      · have hrefused : (mapped waits former).insertStretch x
            = (mapped waits former).occur ⟨.listFull, none, soleLane mask, BitVec.ofInt 16 h⟩ :=
          State.insertStretch_of_full fun hroom => Nat.not_lt.mpr hfull (mapHasRoom_iff.mp hroom)
        rw [hexec, hplaced hstale, if_neg (Int.not_lt.mpr hkept), if_neg hnot, if_neg hnoty, hrefused]

end Sys2Proof.Machine
end

section
/-! PROOFS. The rules of lane sets and of the expectation list that the tracker's proofs use, and a leading edge at the
tracker (R103 to R106). -/

namespace Sys2Proof.Machine

open Sys2Proof

variable {s t u : State}

/-! ### Lane sets -/

theorem laneBit_getLsbD (k j : Lane) : (laneBit k).getLsbD j.val = decide (j = k) := by
  revert k j
  decide

theorem laneSet_ext {a b : LaneSet} (h : ∀ j : Lane, a.getLsbD j.val = b.getLsbD j.val) : a = b :=
  BitVec.eq_of_getLsbD_eq fun i hi => h ⟨i, hi⟩

/-- A set that holds a lane is emptied by its leaving exactly where it holds that lane alone. -/
theorem dropLane_eq_zero_iff {b : LaneSet} {k : Lane} (h : b.getLsbD k.val = true) :
    dropLane b k = 0 ↔ b = laneBit k := by
  revert b k
  decide

theorem foldl_addLane_getLsbD (l : List Lane) (m : LaneSet) (j : Lane) :
    (l.foldl addLane m).getLsbD j.val = (m.getLsbD j.val || decide (j ∈ l)) := by
  induction l generalizing m with
  | nil => simp
  | cons k l ih =>
    rw [List.foldl_cons, ih, addLane, BitVec.getLsbD_or, laneBit_getLsbD, Bool.or_assoc, ← Bool.decide_or]
    simp

theorem laneSetOf_getLsbD (l : List Lane) (j : Lane) : (laneSetOf l).getLsbD j.val = decide (j ∈ l) := by
  rw [laneSetOf, foldl_addLane_getLsbD]
  simp

theorem laneSetOf_eq_iff {l : List Lane} {m : LaneSet} :
    laneSetOf l = m ↔ ∀ j : Lane, j ∈ l ↔ m.getLsbD j.val = true := by
  constructor
  · rintro rfl j
    rw [laneSetOf_getLsbD, decide_eq_true_eq]
  · refine fun h => laneSet_ext fun j => ?_
    rw [laneSetOf_getLsbD, Bool.eq_iff_iff, decide_eq_true_eq, h j]

theorem State.normalLanes_getLsbD (j : Lane) :
    s.normalLanes.getLsbD j.val = decide ((s.eyes.get j).state = .normal) := by
  rw [State.normalLanes, laneSetOf_getLsbD]
  simp [mem_lanes]

theorem quad_set_get {α : Type} (v : Quad α) (k : Fin 4) : v.set k (v.get k) = v := by
  refine Quad.ext_get fun j => ?_
  rw [Quad.get_set]
  split_ifs with h
  · rw [h]
  · rfl

/-! ### Lists with a member singled out -/

theorem find?_middle {α : Type} {p : α → Bool} {l r : List α} {x : α} (hx : p x = true) (hl : ∀ y ∈ l, ¬ p y = true) :
    (l ++ x :: r).find? p = some x := by
  rw [List.find?_append, List.find?_eq_none.mpr hl, Option.none_or]
  exact List.find?_cons_of_pos hx

theorem map_replace_middle {α : Type} [DecidableEq α] {l r : List α} {x y : α} (h : (l ++ x :: r).Nodup) :
    ((l ++ x :: r).map fun z => if z = x then y else z) = l ++ y :: r := by
  have hkeep (m : List α) (hm : x ∉ m) : (m.map fun z => if z = x then y else z) = m := by
    refine (List.map_congr_left fun z hz => ?_).trans (List.map_id m)
    exact if_neg fun (e : z = x) => hm (e ▸ hz)
  obtain ⟨hnodup, hout⟩ := List.nodup_middle.mp h |> List.nodup_cons.mp |>.symm
  rw [List.mem_append, not_or] at hout
  rw [List.map_append, List.map_cons, hkeep l hout.1, hkeep r hout.2, if_pos rfl]

theorem erase_middle {α : Type} [DecidableEq α] {l r : List α} {x : α} (h : x ∉ l) :
    (l ++ x :: r).erase x = l ++ r := by
  rw [List.erase_append_right _ h, List.erase_cons_head]

/-! ### The expectation list (R71, R72) -/

theorem ListLaw.nodup (h : ListLaw s) : s.tracker.entries.Nodup := by
  obtain ⟨-, -, htags, -⟩ := h
  exact htags.imp fun hne e => hne (congrArg (·.piece.tag) e)

section
variable {l r : List Entry} {e e' : Entry}

theorem ListLaw.not_mem (h : ListLaw s) (hentries : s.tracker.entries = l ++ e :: r) : e ∉ l ++ r := by
  have hnodup := h.nodup
  rw [hentries, List.nodup_middle, List.nodup_cons] at hnodup
  exact hnodup.1

theorem ListLaw.replace (h : ListLaw s) (hentries : s.tracker.entries = l ++ e :: r) :
    s.tracker.replace e e' = { s.tracker with entries := l ++ e' :: r } := by
  have hnodup := h.nodup
  rw [hentries] at hnodup
  rw [Tracker.replace, hentries, map_replace_middle hnodup]

theorem ListLaw.remove (h : ListLaw s) (hentries : s.tracker.entries = l ++ e :: r) :
    s.tracker.remove e = { s.tracker with entries := l ++ r } := by
  rw [Tracker.remove, hentries, erase_middle fun hl => h.not_mem hentries (List.mem_append_left r hl)]

/-- The entry of a tag is the only one that carries it. -/
theorem ListLaw.filter_tag (h : ListLaw s) (hentries : s.tracker.entries = l ++ e :: r) :
    (s.tracker.entries.filter fun x => x.piece.tag ≠ e.piece.tag) = l ++ r := by
  obtain ⟨-, -, htags, -⟩ := h
  rw [hentries] at htags ⊢
  obtain ⟨-, hr, hl⟩ := List.pairwise_append.mp htags
  obtain ⟨hr, -⟩ := List.pairwise_cons.mp hr
  rw [List.filter_append, List.filter_cons_of_neg (by simp),
    List.filter_eq_self.mpr fun x hx => decide_eq_true (hl x hx e List.mem_cons_self),
    List.filter_eq_self.mpr fun x hx => decide_eq_true (hr x hx).symm]

end

/-! ### A leading edge (R103 to R106) -/

/-- The entry is one that an edge on the lane joins (R104). -/
def Entry.Joins (e : Entry) (skew : Nat) (k : Lane) : Prop :=
  ∃ g, e.passage = some g ∧ e.piece.mask.getLsbD k.val = true ∧ g.seen.getLsbD k.val = false ∧ g.travel ≤ skew

/-- The entry is one that an edge on the lane matches, with ENCODER LOST as given (R82, R90). -/
def Entry.Matches (e : Entry) (lost : Bool) (k : Lane) : Prop :=
  e.passage = none ∧ e.piece.mask.getLsbD k.val = true
    ∧ (lost = true ∨ (-(e.late : Int) ≤ e.remaining ∧ e.remaining ≤ e.early))

section
variable {l r : List Entry} {e : Entry} {k : Lane} {g : Passage}

theorem Tracker.joinable_of_first {v : Tracker} {skew : Nat} (hentries : v.entries = l ++ e :: r) (he : e.Joins skew k)
    (hl : ∀ x ∈ l, ¬ x.Joins skew k) : v.joinable skew k = some e := by
  rw [Tracker.joinable, hentries]
  refine find?_middle ?_ fun x hx hjoin => hl x hx ?_
  · obtain ⟨g, hg, hmask, hseen, htravel⟩ := he
    simp only [hg, hasLane, hmask, hseen, decide_eq_true htravel]
    rfl
  · cases hg : x.passage with
    | none => simp [hg] at hjoin
    | some g =>
      simp only [hg, hasLane, Bool.and_eq_true, Bool.not_eq_true', decide_eq_true_eq, and_assoc] at hjoin
      exact ⟨g, hg, hjoin⟩

theorem Tracker.joinable_of_none {v : Tracker} {skew : Nat} (h : ∀ x ∈ v.entries, ¬ x.Joins skew k) :
    v.joinable skew k = none := by
  rw [Tracker.joinable, List.find?_eq_none]
  intro x hx hjoin
  cases hg : x.passage with
  | none => simp [hg] at hjoin
  | some g =>
    simp only [hg, hasLane, Bool.and_eq_true, Bool.not_eq_true', decide_eq_true_eq, and_assoc] at hjoin
    exact h x hx ⟨g, hg, hjoin⟩

theorem Entry.matches_iff {lost : Bool} :
    (e.passage.isNone && hasLane e.piece.mask k && (lost || e.inWindow)) = true ↔ e.Matches lost k := by
  cases hg : e.passage <;> simp [Entry.Matches, Entry.inWindow, hasLane, hg]

theorem Tracker.candidate_of_first {v : Tracker} {lost : Bool} (hentries : v.entries = l ++ e :: r)
    (he : e.Matches lost k) (hl : ∀ x ∈ l, ¬ x.Matches lost k) : v.candidate lost k = some e := by
  rw [Tracker.candidate, hentries]
  exact find?_middle (Entry.matches_iff.mpr he) fun x hx => mt Entry.matches_iff.mp (hl x hx)

theorem Tracker.candidate_of_none {v : Tracker} {lost : Bool} (h : ∀ x ∈ v.entries, ¬ x.Matches lost k) :
    v.candidate lost k = none :=
  List.find?_eq_none.mpr fun x hx => mt Entry.matches_iff.mp (h x hx)

theorem Eye.matched_eq (e : Eye) : e.matched
    = if e.state = .normal ∨ e.state = .suspect then { e with state := .normal, losses := 0 } else e := by
  obtain ⟨raw, blocked, state, losses, clearRun, blockedRun, debounce⟩ := e
  cases state <;> rfl

theorem State.trackLeading_of_join (hjoin : s.tracker.joinable (Image.skew s.image) k = some e)
    (hg : e.passage = some g) : s.trackLeading k = s.joinPassage e g k := by
  simp only [State.trackLeading, hjoin, hg]

theorem State.trackLeading_of_match (hjoin : s.tracker.joinable (Image.skew s.image) k = none)
    (hmatch : s.tracker.candidate s.travel.lost k = some e) : s.trackLeading k = s.matchEntry e k := by
  simp only [State.trackLeading, hjoin, hmatch]

theorem State.trackLeading_of_orphan (hjoin : s.tracker.joinable (Image.skew s.image) k = none)
    (hmatch : s.tracker.candidate s.travel.lost k = none) : s.trackLeading k = s.makeOrphan k := by
  simp only [State.trackLeading, hjoin, hmatch]

theorem State.makeOrphan_of_none (h : s.tracker.orphans.get k = none) : s.makeOrphan k = { s with
    tracker := { s.tracker with orphans := s.tracker.orphans.set k (some ⟨0, none, false, s.travel.lost⟩) } } := by
  rw [State.makeOrphan, h]

theorem State.makeOrphan_of_some {o : Orphan} (h : s.tracker.orphans.get k = some o) :
    s.makeOrphan k = { s.adopt k o with
      tracker := { (s.adopt k o).tracker with
        orphans := (s.adopt k o).tracker.orphans.set k (some ⟨0, none, false, s.travel.lost⟩) } } := by
  rw [State.makeOrphan, h]

end

/-- Settles O8: the first of join, match and orphan that applies (R103). -/
theorem leadingEdgeAtTracker : Obligations.LeadingEdgeAtTracker := by
  intro s k hlaw bit joins matched seen
  have hseen : (s.eyes.get k).matched = seen := Eye.matched_eq _
  have hnojoin (h : ∀ x ∈ s.tracker.entries, ¬ joins x) : s.tracker.joinable (Image.skew s.image) k = none :=
    Tracker.joinable_of_none h
  refine ⟨fun l r e g hentries hjoin hg hfirst => ?join, fun l r e hentries hnone hmatch hfirst => ?matched,
    fun hneither => ?orphan⟩
  case join =>
    rw [State.trackLeading_of_join (Tracker.joinable_of_first hentries hjoin hfirst) hg, State.joinPassage,
      hlaw.replace hentries, State.matchedSighting]
    simp only [hseen]
    rfl
  case matched =>
    rw [State.trackLeading_of_match (hnojoin hnone) (Tracker.candidate_of_first hentries hmatch hfirst),
      State.matchEntry, hlaw.replace hentries, State.matchedSighting]
    simp only [hseen]
    rfl
  case orphan =>
    have horphan := State.trackLeading_of_orphan (hnojoin fun x hx => (hneither x hx).1)
      (Tracker.candidate_of_none fun x hx => (hneither x hx).2)
    rw [horphan]
    exact ⟨fun h => State.makeOrphan_of_none h, fun o h => State.makeOrphan_of_some h⟩

end Sys2Proof.Machine
end

section
/-! PROOFS. Lanes that leave their record, and the end of a passage (R109 to R113, R118). -/

namespace Sys2Proof.Machine

open Sys2Proof

variable {s t u : State}

/-! ### Which record a lane leaves (R109) -/

/-- No passage of the entries has the lane blocked. -/
def NoneBlocked (l : List Entry) (k : Lane) : Prop :=
  ∀ x ∈ l, ∀ g, x.passage = some g → ¬ g.blocked.getLsbD k.val = true

section
variable {v : Tracker} {k : Lane} {e : Entry} {g : Passage} {l r : List Entry} {a : Adopted} {m q : List Adopted}

theorem Tracker.blockedEntry_of_first (hentries : v.entries = l ++ e :: r) (hg : e.passage = some g)
    (hheld : g.blocked.getLsbD k.val = true) (hl : NoneBlocked l k) : v.blockedEntry k = some (e, g) := by
  rw [Tracker.blockedEntry, hentries, List.findSome?_append, List.findSome?_eq_none_iff.mpr ?_, Option.none_or,
    List.findSome?_cons, hg]
  · simp only [hasLane, hheld, if_true]
  · intro x hx
    cases hx' : x.passage with
    | none => rfl
    | some g' => exact if_neg (hl x hx g' hx')

theorem Tracker.blockedEntry_of_none (h : NoneBlocked v.entries k) : v.blockedEntry k = none := by
  rw [Tracker.blockedEntry, List.findSome?_eq_none_iff]
  intro x hx
  cases hx' : x.passage with
  | none => rfl
  | some g' => exact if_neg (h x hx g' hx')

theorem Tracker.blockedAdopted_of_first (hadopted : v.adopted = m ++ a :: q)
    (hheld : a.passage.blocked.getLsbD k.val = true) (hm : ∀ b ∈ m, ¬ b.passage.blocked.getLsbD k.val = true) :
    v.blockedAdopted k = some a := by
  rw [Tracker.blockedAdopted, hadopted]
  exact find?_middle hheld hm

theorem Tracker.blockedAdopted_of_none (h : ∀ b ∈ v.adopted, ¬ b.passage.blocked.getLsbD k.val = true) :
    v.blockedAdopted k = none := List.find?_eq_none.mpr h

end

/-! ### Leaving the record (R109, R113) -/

/-- A passage that a lane has left, with the stuck mark where its eye has become STUCK (R109, R113). -/
def Passage.without (g : Passage) (k : Lane) (stuck : Bool) : Passage :=
  { g with blocked := dropLane g.blocked k, stuck := g.stuck || stuck }

section
variable {k : Lane} {stuck : Bool} {e : Entry} {g : Passage} {a : Adopted}

theorem State.unblock_of_entry (h : s.tracker.blockedEntry k = some (e, g)) :
    s.unblock k stuck = s.unblockEntry e (g.without k stuck) := by
  simp only [State.unblock, h]
  rfl

theorem State.unblock_of_adopted (hentry : s.tracker.blockedEntry k = none) (h : s.tracker.blockedAdopted k = some a) :
    s.unblock k stuck = s.unblockAdopted a (a.passage.without k stuck) := by
  simp only [State.unblock, hentry, h]
  rfl

theorem State.unblock_of_neither (hentry : s.tracker.blockedEntry k = none) (h : s.tracker.blockedAdopted k = none) :
    s.unblock k stuck = { s with
      tracker := { s.tracker with
        orphans := s.tracker.orphans.set k ((s.tracker.orphans.get k).map (·.goClear stuck)) } } := by
  simp only [State.unblock, hentry, h]

theorem State.unblockEntry_of_left (h : g.blocked = 0) :
    s.unblockEntry e g = State.passageEnd { s with tracker := s.tracker.remove e } e.piece g 0 := if_pos h

theorem State.unblockEntry_of_held (h : g.blocked ≠ 0) :
    s.unblockEntry e g = { s with tracker := s.tracker.replace e { e with passage := some g } } := if_neg h

theorem State.unblockAdopted_of_left (h : g.blocked = 0) : s.unblockAdopted a g = State.strayEnd
    { s with tracker := { s.tracker with adopted := s.tracker.adopted.erase a } } a.piece g 0 := if_pos h

theorem State.unblockAdopted_of_held (h : g.blocked ≠ 0) : s.unblockAdopted a g = { s with
    tracker := { s.tracker with
      adopted := s.tracker.adopted.map fun x => if x = a then { a with passage := g } else x } } := if_neg h

theorem Passage.without_blocked_iff (h : g.blocked.getLsbD k.val = true) :
    (g.without k stuck).blocked = 0 ↔ g.blocked = laneBit k := dropLane_eq_zero_iff h

theorem Orphan.goClear_of_blocked {o : Orphan} (h : o.clear = none) :
    o.goClear stuck = { o with clear := some ⟨o.travel, 0⟩, stuck := o.stuck || stuck } := by
  rw [Orphan.goClear, h]

theorem Orphan.goClear_of_clear {o : Orphan} (h : o.clear ≠ none) : o.goClear stuck = o := by
  obtain ⟨c, hc⟩ := Option.ne_none_iff_exists'.mp h
  rw [Orphan.goClear, hc]

end

/-! ### Handing a measured piece on (R111, R112, R118) -/

theorem State.handOn_of_check {p : Piece} {degraded : Bool} {since : Nat} (h : s.role = some .check) :
    s.handOn p degraded since = s.add (passOf p (p.measured.getD 0)) since := by
  rw [State.handOn, h]

theorem State.handOn_of_sort {p : Piece} {degraded : Bool} {since : Nat} (h : s.role = some .sort) :
    s.handOn p degraded since = s.sortPiece ⟨p, true, degraded, since⟩ := by
  rw [State.handOn, h]

section
variable {l r : List Adopted} {a : Adopted} {k : Lane} {stuck : Bool}

/-- The adopted passages with one replaced, where it is the only one that has the lane blocked. -/
theorem adopted_replace_middle {x : Adopted} (hheld : a.passage.blocked.getLsbD k.val = true)
    (hrest : ∀ b ∈ l ++ r, ¬ b.passage.blocked.getLsbD k.val = true) :
    ((l ++ a :: r).map fun z => if z = a then x else z) = l ++ x :: r := by
  have hkeep (m : List Adopted) (hm : ∀ b ∈ m, b ∈ l ++ r) : (m.map fun z => if z = a then x else z) = m := by
    refine (List.map_congr_left fun z hz => ?_).trans (List.map_id m)
    exact if_neg fun (e : z = a) => hrest z (hm z hz) (e ▸ hheld)
  rw [List.map_append, List.map_cons, hkeep l fun b hb => List.mem_append_left r hb,
    hkeep r fun b hb => List.mem_append_right l hb, if_pos rfl]

/-- The first adopted passage that has the lane blocked ends with it, where it is its only blocked lane (R118). -/
theorem State.unblock_ends_adopted (hentries : NoneBlocked s.tracker.entries k) (hadopted : s.tracker.adopted = l ++ a :: r)
    (hblocked : a.passage.blocked = laneBit k) (hl : ∀ b ∈ l, ¬ b.passage.blocked.getLsbD k.val = true) :
    s.unblock k stuck = State.strayEnd { s with tracker := { s.tracker with adopted := l ++ r } } a.piece
      (a.passage.without k stuck) 0 := by
  have hheld : a.passage.blocked.getLsbD k.val = true := by rw [hblocked, laneBit_getLsbD, decide_eq_true rfl]
  rw [State.unblock_of_adopted (Tracker.blockedEntry_of_none hentries)
      (Tracker.blockedAdopted_of_first hadopted hheld hl),
    State.unblockAdopted_of_left ((Passage.without_blocked_iff hheld).mpr hblocked), hadopted,
    erase_middle fun hmem => hl a hmem hheld]

theorem State.strayEnd_of_check {p : Piece} {g : Passage} {since : Nat} (h : s.role = some .check) :
    s.strayEnd p g since = s.add (.pass p.tag p.profile p.mask { p.flags with long := p.flags.long || g.stuck } g.travel
      ⟨0, false⟩) since := State.handOn_of_check h

theorem State.strayEnd_of_sort {p : Piece} {g : Passage} {since : Nat} (h : s.role = some .sort) :
    s.strayEnd p g since = s.sortPiece ⟨{ p with
        measured := some g.travel
        flags := { p.flags with long := p.flags.long || g.stuck } }, true, g.degraded, since⟩ := State.handOn_of_sort h

end

/-! ### The end of an entry's passage (R110) -/

section
variable {p : Piece} {g : Passage} {since : Nat} {unseen : LaneSet}

theorem State.unseen_eq (h : ∀ j : Lane, unseen.getLsbD j.val = true ↔
    p.mask.getLsbD j.val = true ∧ g.seen.getLsbD j.val = false ∧ (s.eyes.get j).state = .normal) :
    s.unseen p.mask g.seen = unseen := by
  refine laneSet_ext fun j => ?_
  rw [Bool.eq_iff_iff, h j, State.unseen, BitVec.getLsbD_and, BitVec.getLsbD_and, State.normalLanes_getLsbD,
    BitVec.getLsbD_not]
  simp only [j.isLt, decide_true, Bool.true_and, Bool.and_eq_true, Bool.not_eq_true', decide_eq_true_eq]
  tauto

/-- What the length check finds on a passage: short and long (R110). -/
def State.lengthFound (s : State) (p : Piece) (g : Passage) : Bool × Bool :=
  if g.degraded || g.stuck then (false, false) else lengthCheck s.image p.profile g.travel

theorem State.lengthFound_eq : s.lengthFound p g =
    (decide (((Image.profile s.image p.profile).identified = true ∧ g.degraded = false ∧ g.stuck = false)
        ∧ g.travel + (Image.profile s.image p.profile).tolerance < (Image.profile s.image p.profile).nominal),
      decide (((Image.profile s.image p.profile).identified = true ∧ g.degraded = false ∧ g.stuck = false)
        ∧ (Image.profile s.image p.profile).nominal + (Image.profile s.image p.profile).tolerance < g.travel)) := by
  unfold State.lengthFound lengthCheck
  simp only []
  generalize Image.profile s.image p.profile = v
  cases g.degraded <;> cases g.stuck <;> cases v.identified <;> simp

/-- The occurrences at the end of a passage: PARTIAL, then LENGTH (R110). -/
def State.passageTold (s : State) (p : Piece) (g : Passage) (unseen : LaneSet) (short long : Bool) : State :=
  let sight := if unseen = 0 then s
    else s.occur ⟨.partialSight, some p.tag, soleLane unseen, BitVec.ofNat 16 unseen.toNat⟩
  if short = false ∧ long = false then sight
  else sight.occur ⟨.length, some p.tag, soleLane p.mask, BitVec.ofNat 16 g.travel⟩

theorem State.passageTold_role (unseen : LaneSet) (short long : Bool) :
    (s.passageTold p g unseen short long).role = s.role := by
  unfold State.passageTold
  split_ifs
  · rfl
  · exact (State.occur_quiet _ _).role
  · exact (State.occur_quiet _ _).role
  · exact ((State.occur_quiet _ _).trans (State.occur_quiet _ _)).role

/-- The flags of a piece whose passage has ended (R110, R113). -/
def Flags.passed (f : Flags) (unseen : LaneSet) (short long stuck : Bool) : Flags :=
  { f with
    partialSight := f.partialSight || decide (unseen ≠ 0)
    short := f.short || short
    long := f.long || long || stuck }

/-- The end of a passage by its parts (R110). -/
theorem State.passageEnd_of {short long : Bool} (hunseen : s.unseen p.mask g.seen = unseen)
    (hfound : s.lengthFound p g = (short, long)) : s.passageEnd p g since =
      (s.passageTold p g unseen short long).handOn
        { p with measured := some g.travel, flags := p.flags.passed unseen short long g.stuck } g.degraded since := by
  subst hunseen
  obtain rfl : (s.lengthFound p g).1 = short := congrArg Prod.fst hfound
  obtain rfl : (s.lengthFound p g).2 = long := congrArg Prod.snd hfound
  have hsome : (s.unseen p.mask g.seen != 0) = decide (s.unseen p.mask g.seen ≠ 0) := by
    simp [bne, Bool.beq_eq_decide_eq]
  have htold : s.passageTold p g (s.unseen p.mask g.seen) (s.lengthFound p g).1 (s.lengthFound p g).2
      = if (s.lengthFound p g).1 || (s.lengthFound p g).2 then
          (if s.unseen p.mask g.seen != 0 then s.occur ⟨.partialSight, some p.tag, soleLane (s.unseen p.mask g.seen),
            BitVec.ofNat 16 (s.unseen p.mask g.seen).toNat⟩ else s).occur
            ⟨.length, some p.tag, soleLane p.mask, BitVec.ofNat 16 g.travel⟩
        else if s.unseen p.mask g.seen != 0 then s.occur ⟨.partialSight, some p.tag, soleLane (s.unseen p.mask g.seen),
            BitVec.ofNat 16 (s.unseen p.mask g.seen).toNat⟩ else s := by
    unfold State.passageTold
    rw [hsome]
    by_cases hzero : s.unseen p.mask g.seen = 0 <;> cases (s.lengthFound p g).1 <;> cases (s.lengthFound p g).2 <;>
      simp [hzero]
  rw [htold, Flags.passed, ← hsome]
  rfl

/-- A passage that all lanes have seen, of a length within the tolerance, tells nothing (R110). -/
theorem State.passageTold_of_whole : s.passageTold p g 0 false false = s := rfl

theorem Flags.passed_of_whole (f : Flags) : f.passed 0 false false false = f := by
  simp [Flags.passed]

theorem State.unseen_of_whole (h : p.mask &&& ~~~ g.seen = 0) : s.unseen p.mask g.seen = 0 := by
  rw [State.unseen, BitVec.and_assoc, BitVec.and_comm s.normalLanes, ← BitVec.and_assoc, h]
  exact BitVec.zero_and

theorem State.lengthFound_of_whole
    (h : (Image.profile s.image p.profile).identified = true →
      (Image.profile s.image p.profile).nominal ≤ g.travel + (Image.profile s.image p.profile).tolerance
        ∧ g.travel ≤ (Image.profile s.image p.profile).nominal + (Image.profile s.image p.profile).tolerance) :
    s.lengthFound p g = (false, false) := by
  rw [State.lengthFound_eq, Prod.mk.injEq, decide_eq_false_iff_not, decide_eq_false_iff_not]
  exact ⟨fun ⟨⟨hidentified, _⟩, hshort⟩ => Nat.not_lt.mpr (h hidentified).1 hshort,
    fun ⟨⟨hidentified, _⟩, hlong⟩ => Nat.not_lt.mpr (h hidentified).2 hlong⟩

theorem State.passageEnd_of_check {short long : Bool} (hrole : s.role = some .check)
    (hunseen : s.unseen p.mask g.seen = unseen) (hfound : s.lengthFound p g = (short, long)) :
    s.passageEnd p g since = (s.passageTold p g unseen short long).add
      (.pass p.tag p.profile p.mask (p.flags.passed unseen short long g.stuck) g.travel ⟨0, false⟩) since := by
  rw [State.passageEnd_of hunseen hfound]
  exact State.handOn_of_check ((State.passageTold_role _ _ _).trans hrole)

theorem State.passageEnd_of_sort {short long : Bool} (hrole : s.role = some .sort)
    (hunseen : s.unseen p.mask g.seen = unseen) (hfound : s.lengthFound p g = (short, long)) :
    s.passageEnd p g since = (s.passageTold p g unseen short long).sortPiece ⟨{ p with
      measured := some g.travel, flags := p.flags.passed unseen short long g.stuck }, true, g.degraded, since⟩ := by
  rw [State.passageEnd_of hunseen hfound]
  exact State.handOn_of_sort ((State.passageTold_role _ _ _).trans hrole)

end

section
variable {k : Lane} {stuck : Bool} {l r : List Entry} {e : Entry} {g : Passage}

theorem State.unblock_keeps_entry (hlaw : ListLaw s) (hentries : s.tracker.entries = l ++ e :: r)
    (hg : e.passage = some g) (hheld : g.blocked.getLsbD k.val = true) (hfirst : NoneBlocked l k)
    (hmore : g.blocked ≠ laneBit k) : s.unblock k stuck = { s with
      tracker := { s.tracker with entries := l ++ { e with passage := some (g.without k stuck) } :: r } } := by
  rw [State.unblock_of_entry (Tracker.blockedEntry_of_first hentries hg hheld hfirst),
    State.unblockEntry_of_held (mt (Passage.without_blocked_iff hheld).mp hmore), hlaw.replace hentries]

theorem State.unblock_ends_entry (hlaw : ListLaw s) (hentries : s.tracker.entries = l ++ e :: r)
    (hg : e.passage = some g) (hheld : g.blocked.getLsbD k.val = true) (hfirst : NoneBlocked l k)
    (honly : g.blocked = laneBit k) : s.unblock k stuck =
      State.passageEnd { s with tracker := { s.tracker with entries := l ++ r } } e.piece (g.without k stuck) 0 := by
  rw [State.unblock_of_entry (Tracker.blockedEntry_of_first hentries hg hheld hfirst),
    State.unblockEntry_of_left ((Passage.without_blocked_iff hheld).mpr honly), hlaw.remove hentries]

end

theorem ListLaw.split_of_mem {e : Entry} (h : ListLaw s) (he : e ∈ s.tracker.entries) :
    ∃ l r, s.tracker.entries = l ++ e :: r ∧ e ∉ l := by
  obtain ⟨l, r, hentries⟩ := List.append_of_mem he
  exact ⟨l, r, hentries, fun hl => h.not_mem hentries (List.mem_append_left r hl)⟩

/-- Settles O9: the record a lane leaves is the first that has it blocked, and the parts of a passage's end follow one
another. -/
theorem passageEndSendsPass : Obligations.PassageEndSendsPass := by
  refine ⟨fun s k stuck hlaw => ?leaves, fun s p g since unseen hunseen => ?ends, fun s k e g hrole hlaw he hg hblocked
    hothers hseen hdegraded hstuck hlength => ?whole⟩
  case leaves =>
    refine ⟨fun l e r g hentries hg hheld hfirst => ⟨State.unblock_keeps_entry hlaw hentries hg hheld hfirst,
      State.unblock_ends_entry hlaw hentries hg hheld hfirst⟩, fun l a r hentries hadopted hheld hrest => ?adopted,
      fun hentries hnone => ?orphan⟩
    case adopted =>
      have hl : ∀ b ∈ l, ¬ b.passage.blocked.getLsbD k.val = true := fun b hb => hrest b (List.mem_append_left r hb)
      refine ⟨fun hmore => ?_, fun honly hrole => ?_, fun honly hrole => ?_⟩
      · rw [State.unblock_of_adopted (Tracker.blockedEntry_of_none hentries)
            (Tracker.blockedAdopted_of_first hadopted hheld hl),
          State.unblockAdopted_of_held (mt (Passage.without_blocked_iff hheld).mp hmore), hadopted,
          adopted_replace_middle hheld hrest]
        rfl
      · rw [State.unblock_ends_adopted hentries hadopted honly hl]
        exact State.strayEnd_of_check (by exact hrole)
      · rw [State.unblock_ends_adopted hentries hadopted honly hl]
        exact State.strayEnd_of_sort (by exact hrole)
    case orphan =>
      have hneither := State.unblock_of_neither (stuck := stuck) (Tracker.blockedEntry_of_none hentries)
        (Tracker.blockedAdopted_of_none hnone)
      refine ⟨fun o ho hclear => ?_, fun hclear => ?_⟩
      · rw [hneither, ho, Option.map_some, Orphan.goClear_of_blocked hclear]
      · have hsame : (s.tracker.orphans.get k).map (·.goClear stuck) = s.tracker.orphans.get k := by
          cases ho : s.tracker.orphans.get k with
          | none => rfl
          | some o => exact congrArg some (Orphan.goClear_of_clear (hclear o ho))
        rw [hneither, hsame, quad_set_get]
  case ends =>
    exact ⟨fun hrole => State.passageEnd_of_check hrole (State.unseen_eq hunseen) State.lengthFound_eq,
      fun hrole => State.passageEnd_of_sort hrole (State.unseen_eq hunseen) State.lengthFound_eq⟩
  case whole =>
    obtain ⟨l, r, hentries, hl⟩ := hlaw.split_of_mem he
    have hheld : g.blocked.getLsbD k.val = true := by
      rw [hblocked]
      exact (laneBit_getLsbD k k).trans (decide_eq_true rfl)
    have hfirst : NoneBlocked l k := by
      intro x hx h hh
      have hmem : x ∈ s.tracker.entries := hentries ▸ List.mem_append_left (e :: r) hx
      rw [hothers x hmem (fun hxe => hl (hxe ▸ hx)) h hh]
      exact Bool.false_ne_true
    rw [State.unblock_ends_entry hlaw hentries hg hheld hfirst hblocked, hlaw.filter_tag hentries]
    have hstuck' : (g.without k false).stuck = false := by rw [Passage.without, hstuck]; rfl
    rw [State.passageEnd_of_check (by exact hrole) (State.unseen_of_whole (by exact hseen))
        (State.lengthFound_of_whole (by exact hlength)), State.passageTold_of_whole, hstuck', Flags.passed_of_whole]
    rfl

end Sys2Proof.Machine
end

section
/-! PROOFS. The close of a window (R84 to R87, R100). -/

namespace Sys2Proof.Machine

open Sys2Proof

variable {s t u : State}

section
variable {e : Entry} {p : Piece} {tag : Tag}

theorem Entry.closes_eq (e : Entry) :
    e.closes = decide (e.passage = none ∧ e.remaining < -(e.late : Int)) := by
  rw [Entry.closes, Bool.decide_and]
  cases e.passage <;> rfl

/-- One lane's part of a lost close: an eye outside the mask, or not NORMAL, counts nothing (R100). -/
theorem State.countLoss_of_not {k : Lane} (h : (s.eyes.get k).state ≠ .normal) : s.countLoss tag k = s := if_neg h

theorem State.countLoss_of_normal {k : Lane} (h : (s.eyes.get k).state = .normal) : s.countLoss tag k =
    if Image.darkCount s.image ≠ 0 ∧ min 15 ((s.eyes.get k).losses + 1) = Image.darkCount s.image then
      State.occur
        { s with
          eyes := s.eyes.set k { s.eyes.get k with losses := min 15 ((s.eyes.get k).losses + 1), state := .suspect } }
        ⟨.eyeSilent, some tag, some k, BitVec.ofNat 16 (min 15 ((s.eyes.get k).losses + 1))⟩
    else { s with eyes := s.eyes.set k { s.eyes.get k with losses := min 15 ((s.eyes.get k).losses + 1) } } := if_pos h

theorem State.countLoss_image (k : Lane) : (s.countLoss tag k).image = s.image := by
  unfold State.countLoss
  simp only []
  split_ifs
  · exact (State.occur_quiet _ _).image
  · rfl
  · rfl

/-- The counts of a lost close, lane by lane, with the dark count of the frozen image (R100). -/
theorem foldl_countLoss {f : State → Lane → State} {im : Image} {mask : LaneSet} (l : List Lane)
    (hf : ∀ u k, u.image = im → f u k = if mask.getLsbD k.val = true then u.countLoss tag k else u) (himage : u.image = im) :
    (l.filter (hasLane mask)).foldl (fun t k => t.countLoss tag k) u = l.foldl f u := by
  induction l generalizing u with
  | nil => rfl
  | cons k l ih =>
    rw [List.foldl_cons, hf u k himage]
    by_cases h : mask.getLsbD k.val = true
    · rw [List.filter_cons_of_pos (p := hasLane mask) h, List.foldl_cons, if_pos h, ih ((State.countLoss_image k).trans himage)]
    · rw [List.filter_cons_of_neg (p := hasLane mask) h, if_neg h, ih himage]

theorem State.foldl_countLoss_role (l : List Lane) : (l.foldl (fun t k => t.countLoss tag k) s).image = s.image := by
  induction l generalizing s with
  | nil => rfl
  | cons k l ih => exact (ih).trans (State.countLoss_image k)

theorem State.lostBatchClose_of_not_sort (h : s.role ≠ some .sort) : s.lostBatchClose p = s :=
  if_neg fun hline => h (State.onLineAs_iff.mp hline).2

/-- The station with the LOSS added and LOST reported (R85). -/
def State.lostTold (s : State) (e : Entry) : State :=
  (State.add s (.loss e.piece.tag e.piece.mask e.piece.flags.batchClose) 0).occur
    ⟨.lost, some e.piece.tag, soleLane e.piece.mask, BitVec.ofInt 16 e.remaining⟩

theorem State.lostTold_image : (s.lostTold e).image = s.image :=
  ((State.add_quiet _ _ _).trans (State.occur_quiet _ _)).image

theorem State.closeLost_eq : s.closeLost e =
    if e.piece.flags.batchClose then
      ((laneList e.piece.mask).foldl (fun t k => t.countLoss e.piece.tag k)
        (State.lostTold { s with tracker := s.tracker.remove e } e)).lostBatchClose e.piece
    else (laneList e.piece.mask).foldl (fun t k => t.countLoss e.piece.tag k)
      (State.lostTold { s with tracker := s.tracker.remove e } e) := rfl

theorem State.closeEntry_of_lost (hrunning : s.running = true)
    (h : ∃ k : Lane, e.piece.mask.getLsbD k.val = true ∧ (s.eyes.get k).state = .normal) :
    s.closeEntry e = s.closeLost e := by
  refine if_pos ?_
  obtain ⟨k, hmask, hnormal⟩ := h
  rw [hrunning, Bool.true_and, lanesMeet_iff]
  intro hzero
  have hbit : (e.piece.mask &&& s.normalLanes).getLsbD k.val = true := by
    rw [BitVec.getLsbD_and, hmask, State.normalLanes_getLsbD, decide_eq_true hnormal]
    rfl
  rw [hzero] at hbit
  simp at hbit

theorem State.closeEntry_of_unverified (h : s.running = false
      ∨ ∀ k : Lane, ¬ (e.piece.mask.getLsbD k.val = true ∧ (s.eyes.get k).state = .normal)) :
    s.closeEntry e = s.passUnverified e := by
  refine if_neg ?_
  rcases h with h | h
  · simp [h]
  · have hzero : e.piece.mask &&& s.normalLanes = 0 := by
      refine laneSet_ext fun k => ?_
      rw [BitVec.getLsbD_and, State.normalLanes_getLsbD]
      have := h k
      cases hmask : e.piece.mask.getLsbD k.val <;> simp_all
    rw [Bool.and_eq_true, lanesMeet_iff]
    exact fun h => h.2 hzero

end

/-- Settles O10: the entries that close are those of R84, and each closes by one of the two paths. -/
theorem windowsClose : Obligations.WindowsClose := by
  refine ⟨fun s => ?_, fun s l r e hlaw hentries hawaited => ?_⟩
  · rw [State.closeWindows]
    exact congrArg (fun p => (s.tracker.entries.filter p).foldl State.closeEntry s) (funext Entry.closes_eq)
  intro p dark left seen unverified lost counts counted
  have hleft : { s with tracker := s.tracker.remove e } = left := by rw [hlaw.remove hentries]
  refine ⟨fun hrunning hseen => ?lost, fun hpath => ⟨fun hrole => ?check, fun hrole => ?sort⟩⟩
  case lost =>
    have himage : (left.lostTold e).image = s.image := State.lostTold_image
    have hcounts : (laneList p.mask).foldl (fun t k => t.countLoss p.tag k) (left.lostTold e) = counted := by
      refine foldl_countLoss lanes (fun u k hu => ?_) himage
      cases hmask : p.mask.getLsbD k.val with
      | false => exact if_pos (.inl hmask)
      | true =>
        by_cases hnormal : (u.eyes.get k).state = .normal
        · rw [if_pos rfl, State.countLoss_of_normal hnormal, hu]
          exact if_neg (by simp [hmask, hnormal])
        · rw [if_pos rfl, State.countLoss_of_not hnormal]
          exact if_pos (.inr hnormal)
    have hcounted : counted.role = s.role := by
      rw [← hcounts]
      exact congrArg Image.role ((State.foldl_countLoss_role _).trans himage)
    rw [State.closeEntry_of_lost hrunning hseen, State.closeLost_eq, hleft, hcounts]
    by_cases hrole : s.role = some .sort
    · simp only [hrole, true_and]
      rfl
    · rw [State.lostBatchClose_of_not_sort (hcounted ▸ hrole), ite_self, if_neg (fun h => hrole h.1)]
  case check =>
    rw [State.closeEntry_of_unverified hpath]
    simp only [State.passUnverified, hleft, hrole]
    rfl
  case sort =>
    rw [State.closeEntry_of_unverified hpath]
    simp only [State.passUnverified, hleft, hrole]
    rfl

end Sys2Proof.Machine
end

section
/-! PROOFS. A group of orphans taken together, by a claim or an adoption (R115 to R118). -/

namespace Sys2Proof.Machine

open Sys2Proof

variable {s t u : State}

/-- The orphan on lane j is one of a group: its lane is within the set, and its travel lies within the skew of t1
(R115, R117). -/
def InGroup (os : Quad (Option Orphan)) (within : LaneSet) (skew t1 : Nat) (j : Lane) (x : Orphan) : Prop :=
  os.get j = some x ∧ within.getLsbD j.val = true ∧ x.travel ≤ t1 + skew ∧ t1 ≤ x.travel + skew

/-- The lanes that the first orphan, on lane k, brings with it. -/
def groupLanes (os : Quad (Option Orphan)) (within : LaneSet) (skew : Nat) (k : Lane) (o : Orphan) : List Lane :=
  lanes.filter fun j => j == k || (orphansNear os within skew o.travel).contains j

section
variable {os : Quad (Option Orphan)} {within m b : LaneSet} {skew t1 : Nat} {k : Lane} {o : Orphan} {ks : List Lane}
  {stuck degraded : Bool}

theorem mem_groupLanes (hk : os.get k = some o) (hwithin : within.getLsbD k.val = true) {j : Lane} :
    j ∈ groupLanes os within skew k o ↔ ∃ x, InGroup os within skew o.travel j x := by
  have hnear : j ∈ orphansNear os within skew o.travel ↔ ∃ x, InGroup os within skew o.travel j x := by
    rw [mem_orphansNear]
    exact ⟨fun ⟨hmask, x, hx, hle, hge⟩ => ⟨x, hx, hmask, hle, hge⟩, fun ⟨x, hx, hmask, hle, hge⟩ => ⟨hmask, x, hx, hle, hge⟩⟩
  rw [groupLanes, List.mem_filter, Bool.or_eq_true, beq_iff_eq, List.contains_iff_mem, hnear]
  constructor
  · rintro ⟨-, rfl | h⟩
    · exact ⟨o, hk, hwithin, Nat.le_add_right _ _, Nat.le_add_right _ _⟩
    · exact h
  · exact fun h => ⟨mem_lanes j, .inr h⟩

/-- The lanes of a list are those on which a group's orphans stand. -/
def AreGroup (os : Quad (Option Orphan)) (within : LaneSet) (skew t1 : Nat) (ks : List Lane) : Prop :=
  ∀ j, j ∈ ks ↔ ∃ x, InGroup os within skew t1 j x

theorem mem_orphansOn (hks : AreGroup os within skew t1 ks) {x : Orphan} :
    x ∈ orphansOn os ks ↔ ∃ j, InGroup os within skew t1 j x := by
  rw [orphansOn, List.mem_filterMap]
  constructor
  · rintro ⟨j, hj, hx⟩
    obtain ⟨y, hy⟩ := (hks j).mp hj
    obtain rfl : y = x := Option.some.inj (hy.1.symm.trans hx)
    exact ⟨j, hy⟩
  · rintro ⟨j, hx⟩
    exact ⟨j, (hks j).mpr ⟨x, hx⟩, hx.1⟩

theorem mem_blockedOrphans (hks : AreGroup os within skew t1 ks) {j : Lane} :
    j ∈ blockedOrphans os ks ↔ ∃ x, InGroup os within skew t1 j x ∧ x.clear = none := by
  rw [blockedOrphans, List.mem_filter, hks]
  constructor
  · rintro ⟨⟨x, hx⟩, hblocked⟩
    refine ⟨x, hx, ?_⟩
    rw [hx.1] at hblocked
    exact Option.isNone_iff_eq_none.mp hblocked
  · rintro ⟨x, hx, hclear⟩
    refine ⟨⟨x, hx⟩, ?_⟩
    rw [hx.1]
    exact Option.isNone_iff_eq_none.mpr hclear

theorem any_orphansOn (hks : AreGroup os within skew t1 ks) (f : Orphan → Bool) (v : Bool)
    (hv : v = true ↔ ∃ j x, InGroup os within skew t1 j x ∧ f x = true) : (orphansOn os ks).any f = v := by
  rw [Bool.eq_iff_iff, hv, List.any_eq_true]
  constructor
  · rintro ⟨x, hx, hf⟩
    obtain ⟨j, hj⟩ := (mem_orphansOn hks).mp hx
    exact ⟨j, x, hj, hf⟩
  · rintro ⟨j, x, hj, hf⟩
    exact ⟨x, (mem_orphansOn hks).mpr ⟨j, hj⟩, hf⟩

/-- The passage that a group forms (R116, R118). -/
theorem passageOf_eq (hks : AreGroup os within skew t1 ks)
    (hm : ∀ j : Lane, m.getLsbD j.val = true ↔ ∃ x, InGroup os within skew t1 j x)
    (hb : ∀ j : Lane, b.getLsbD j.val = true ↔ ∃ x, InGroup os within skew t1 j x ∧ x.clear = none)
    (hstuck : stuck = true ↔ ∃ j x, InGroup os within skew t1 j x ∧ x.stuck = true)
    (hdegraded : degraded = true ↔ ∃ j x, InGroup os within skew t1 j x ∧ x.degraded = true) :
    passageOf os ks t1 = ⟨m, b, t1, degraded, stuck⟩ := by
  have hseen : laneSetOf ks = m := laneSetOf_eq_iff.mpr fun j => (hks j).trans (hm j).symm
  have hblocked : laneSetOf (blockedOrphans os ks) = b :=
    laneSetOf_eq_iff.mpr fun j => (mem_blockedOrphans hks).trans (hb j).symm
  rw [passageOf, hseen, hblocked, any_orphansOn hks _ stuck hstuck, any_orphansOn hks _ degraded hdegraded]

theorem clearOrphans_eq (hks : AreGroup os within skew t1 ks)
    (hm : ∀ j : Lane, m.getLsbD j.val = true ↔ ∃ x, InGroup os within skew t1 j x) (v : Quad (Option Orphan)) :
    clearOrphans v ks = v.mapAt fun j x => if m.getLsbD j.val then none else x := by
  refine congrArg v.mapAt (funext fun j => funext fun x => if_congr ?_ rfl rfl)
  rw [List.contains_iff_mem, hks j, hm j]

/-- What the claim or the adoption of clear orphans measures (R116). -/
theorem group_measured (hks : AreGroup os within skew t1 ks) {length since : Nat}
    (hclear : ∀ j x, InGroup os within skew t1 j x → x.clear ≠ none)
    (hlength : ∃ j x c, InGroup os within skew t1 j x ∧ x.clear = some c ∧ (length : Int) = (t1 : Int) - x.travel + c.measured)
    (hlonger : ∀ j x c, InGroup os within skew t1 j x → x.clear = some c → (t1 : Int) - x.travel + c.measured ≤ length)
    (hsince : ∃ j x c, InGroup os within skew t1 j x ∧ x.clear = some c ∧ since = c.since)
    (hleast : ∀ j x c, InGroup os within skew t1 j x → x.clear = some c → since ≤ c.since) :
    clearLength (orphansOn os ks) t1 = min 65535 length ∧ leastSince (orphansOn os ks) = since := by
  constructor
  · refine clearLength_eq (fun x hx => ?_) (fun x hx c hc => ?_) ?_
    · obtain ⟨j, hj⟩ := (mem_orphansOn hks).mp hx
      exact hclear j x hj
    · obtain ⟨j, hj⟩ := (mem_orphansOn hks).mp hx
      exact hlonger j x c hj hc
    · obtain ⟨j, x, c, hj, hc, hlen⟩ := hlength
      exact ⟨x, (mem_orphansOn hks).mpr ⟨j, hj⟩, c, hc, hlen.symm⟩
  · refine leastSince_eq (fun x hx c hc => ?_) ?_
    · obtain ⟨j, hj⟩ := (mem_orphansOn hks).mp hx
      exact hleast j x c hj hc
    · obtain ⟨j, x, c, hj, hc, hlen⟩ := hsince
      exact ⟨x, (mem_orphansOn hks).mpr ⟨j, hj⟩, c, hc, hlen.symm⟩

/-- No orphan of a group is blocked exactly where the blocked lanes are none. -/
theorem group_clear (hb : ∀ j : Lane, b.getLsbD j.val = true ↔ ∃ x, InGroup os within skew t1 j x ∧ x.clear = none)
    (hzero : b = 0) {j : Lane} {x : Orphan} (hx : InGroup os within skew t1 j x) : x.clear ≠ none := by
  intro hclear
  have := (hb j).mpr ⟨x, hx, hclear⟩
  rw [hzero] at this
  simp at this

end

/-! ### A lone orphan -/

section
variable {os : Quad (Option Orphan)} {within : LaneSet} {skew : Nat} {k : Lane} {o : Orphan}

/-- Where no other lane of the set holds an orphan, the group is the orphan alone. -/
theorem inGroup_alone (hk : os.get k = some o) (hwithin : within.getLsbD k.val = true)
    (halone : ∀ j : Lane, j ≠ k → within.getLsbD j.val = true → os.get j = none) {j : Lane} {x : Orphan} :
    InGroup os within skew o.travel j x ↔ j = k ∧ x = o := by
  constructor
  · rintro ⟨hx, hj, -⟩
    by_cases hjk : j = k
    · subst hjk
      exact ⟨rfl, Option.some.inj (hx.symm.trans hk)⟩
    · rw [halone j hjk hj] at hx
      exact absurd hx (by simp)
  · rintro ⟨rfl, rfl⟩
    exact ⟨hk, hwithin, Nat.le_add_right _ _, Nat.le_add_right _ _⟩

theorem exists_inGroup_alone (hk : os.get k = some o) (hwithin : within.getLsbD k.val = true)
    (halone : ∀ j : Lane, j ≠ k → within.getLsbD j.val = true → os.get j = none) {P : Lane → Orphan → Prop} :
    (∃ j x, InGroup os within skew o.travel j x ∧ P j x) ↔ P k o := by
  simp only [inGroup_alone hk hwithin halone]
  exact ⟨fun ⟨_, _, ⟨hj, hx⟩, h⟩ => hj ▸ hx ▸ h, fun h => ⟨k, o, ⟨rfl, rfl⟩, h⟩⟩

theorem alone_lanes (hk : os.get k = some o) (hwithin : within.getLsbD k.val = true)
    (halone : ∀ j : Lane, j ≠ k → within.getLsbD j.val = true → os.get j = none) (j : Lane) :
    (laneBit k).getLsbD j.val = true ↔ ∃ x, InGroup os within skew o.travel j x := by
  simp only [inGroup_alone hk hwithin halone, laneBit_getLsbD, decide_eq_true_eq]
  exact ⟨fun h => ⟨o, h, rfl⟩, fun ⟨_, h, _⟩ => h⟩

theorem alone_blocked (hk : os.get k = some o) (hwithin : within.getLsbD k.val = true)
    (halone : ∀ j : Lane, j ≠ k → within.getLsbD j.val = true → os.get j = none) (j : Lane) :
    (if o.clear = none then laneBit k else (0 : LaneSet)).getLsbD j.val = true
      ↔ ∃ x, InGroup os within skew o.travel j x ∧ x.clear = none := by
  simp only [inGroup_alone hk hwithin halone]
  by_cases hclear : o.clear = none
  · rw [if_pos hclear, laneBit_getLsbD, decide_eq_true_eq]
    exact ⟨fun h => ⟨o, ⟨h, rfl⟩, hclear⟩, fun ⟨_, ⟨h, _⟩, _⟩ => h⟩
  · rw [if_neg hclear]
    exact iff_of_false (by simp) fun ⟨_, ⟨_, hx⟩, h⟩ => hclear (hx ▸ h)

theorem laneBit_ne_zero (k : Lane) : laneBit k ≠ 0 := by
  revert k
  decide

theorem mapAt_laneBit_none (v : Quad (Option Orphan)) (k : Lane) :
    (v.mapAt fun j x => if (laneBit k).getLsbD j.val then none else x) = v.set k none := by
  refine Quad.ext_get fun j => ?_
  rw [Quad.get_mapAt, Quad.get_set, laneBit_getLsbD]
  simp

end

end Sys2Proof.Machine
end

section
/-! PROOFS. The receive order of DROP and PASS (R77 to R80, R115, R116, R101). -/

namespace Sys2Proof.Machine

open Sys2Proof

variable {s t u : State}

/-! ### The entry of a tag (R71, R78) -/

section
variable {l r : List Entry} {e : Entry} {tag : Tag}

theorem ListLaw.find (h : ListLaw s) (hentries : s.tracker.entries = l ++ e :: r) (htag : e.piece.tag = tag) :
    s.tracker.find tag = some e := by
  obtain ⟨-, -, htags, -⟩ := h
  rw [hentries] at htags
  obtain ⟨-, -, hl⟩ := List.pairwise_append.mp htags
  rw [Tracker.find, hentries]
  refine find?_middle (beq_iff_eq.mpr htag) fun x hx => ?_
  rw [beq_iff_eq, ← htag]
  exact hl x hx e List.mem_cons_self

theorem Tracker.find_of_new {v : Tracker} (h : ∀ x ∈ v.entries, x.piece.tag ≠ tag) : v.find tag = none :=
  List.find?_eq_none.mpr fun x hx => by simpa using h x hx

end

/-! ### Sightings at a claim (R101) -/

theorem Eye.matched_matched (e : Eye) : e.matched.matched = e.matched := by
  obtain ⟨raw, blocked, state, losses, clearRun, blockedRun, debounce⟩ := e
  cases state <;> rfl

theorem State.foldl_matchedSighting (ks : List Lane) : ks.foldl State.matchedSighting s
    = { s with eyes := s.eyes.mapAt fun j e => if j ∈ ks then e.matched else e } := by
  induction ks generalizing s with
  | nil =>
    have hsame : (s.eyes.mapAt fun j e => if j ∈ ([] : List Lane) then e.matched else e) = s.eyes :=
      Quad.ext_get fun j => by rw [Quad.get_mapAt, if_neg (by simp)]
    rw [hsame]
    rfl
  | cons k ks ih =>
    rw [List.foldl_cons, ih, State.matchedSighting]
    have heyes : ((s.eyes.set k (s.eyes.get k).matched).mapAt fun j e => if j ∈ ks then e.matched else e)
        = s.eyes.mapAt fun j e => if j ∈ k :: ks then e.matched else e := by
      refine Quad.ext_get fun j => ?_
      rw [Quad.get_mapAt, Quad.get_mapAt, Quad.get_set]
      by_cases hjk : j = k
      · subst hjk
        rw [if_pos rfl, Eye.matched_matched, ite_self, if_pos List.mem_cons_self]
      · rw [if_neg hjk]
        exact if_congr (by simp [hjk]) rfl rfl
    rw [heyes]

section
variable {within m b : LaneSet} {skew t1 : Nat} {ks : List Lane} {stuck degraded : Bool}

/-- The lanes of a group, cleared of their orphans, each with a matched sighting (R101, R116). -/
theorem State.takeOrphans_eq (hks : AreGroup s.tracker.orphans within skew t1 ks)
    (hm : ∀ j : Lane, m.getLsbD j.val = true ↔ ∃ x, InGroup s.tracker.orphans within skew t1 j x) :
    s.takeOrphans ks = { s with
      eyes := s.eyes.mapAt fun j e =>
        if m.getLsbD j.val = true ∧ (e.state = .normal ∨ e.state = .suspect) then { e with state := .normal, losses := 0 }
        else e
      tracker := { s.tracker with orphans := s.tracker.orphans.mapAt fun j x => if m.getLsbD j.val then none else x } } := by
  have heyes : (s.eyes.mapAt fun j e => if j ∈ ks then e.matched else e) = s.eyes.mapAt fun j e =>
      if m.getLsbD j.val = true ∧ (e.state = .normal ∨ e.state = .suspect) then { e with state := .normal, losses := 0 }
      else e := by
    refine congrArg s.eyes.mapAt (funext fun j => funext fun e => ?_)
    rw [ite_and, Eye.matched_eq]
    exact if_congr ((hks j).trans (hm j).symm) rfl rfl
  rw [State.takeOrphans, State.foldl_matchedSighting]
  simp only [heyes, clearOrphans_eq hks hm]

/-! ### A claim (R79, R115, R116) -/

theorem Announcement.passes_iff {a : Announcement} {k : Lane} {o : Orphan} : a.passes k o = true
    ↔ a.piece.mask.getLsbD k.val = true ∧ -(a.late : Int) ≤ a.initial + o.travel ∧ a.initial + o.travel ≤ a.early := by
  simp [Announcement.passes, hasLane, and_assoc]

theorem State.claim_of_first {a : Announcement} {k : Lane} {o : Orphan}
    (h : firstOrphan s.tracker.orphans a.passes = some (k, o)) :
    s.claim a = some (groupLanes s.tracker.orphans a.piece.mask (Image.skew s.image) k o, o.travel) := by
  rw [State.claim, h]
  rfl

theorem State.claim_of_none {a : Announcement} (h : firstOrphan s.tracker.orphans a.passes = none) : s.claim a = none := by
  rw [State.claim, h]

/-- The tracker with the entry a notice gives placed among others (R72, R77). -/
def Tracker.placed (v : Tracker) (a : Announcement) (g : Option Passage) (others : List Entry) : Tracker :=
  { v with
    nextPlacing := v.nextPlacing + 1
    entries := insertEntry ⟨a.piece, a.initial, a.early, a.late, g, v.nextPlacing⟩ others }

theorem State.claimed_of_clear {a : Announcement} (h : (passageOf s.tracker.orphans ks t1).blocked = 0) :
    s.claimed a ks t1 = (s.takeOrphans ks).passageEnd a.piece
      { passageOf s.tracker.orphans ks t1 with travel := clearLength (orphansOn s.tracker.orphans ks) t1 }
      (leastSince (orphansOn s.tracker.orphans ks)) := if_pos h

theorem State.claimed_of_room {a : Announcement} (h : (passageOf s.tracker.orphans ks t1).blocked ≠ 0)
    (hroom : s.tracker.entries.length < 32) : s.claimed a ks t1 = { s.takeOrphans ks with
      tracker := (s.takeOrphans ks).tracker.placed a (some (passageOf s.tracker.orphans ks t1))
        (s.takeOrphans ks).tracker.entries } := (if_neg h).trans (if_pos hroom)

theorem State.claimed_of_full {a : Announcement} (h : (passageOf s.tracker.orphans ks t1).blocked ≠ 0)
    (hfull : 32 ≤ s.tracker.entries.length) : s.claimed a ks t1 = s.occur (a.fault .listFull) :=
  (if_neg h).trans (if_neg (Nat.not_lt.mpr hfull))

end

/-! ### The order (R77) -/

section
variable {a : Announcement}

theorem State.receiveOrder_of_stale (h : a.stale = true) : s.receiveOrder a = s.occur (a.fault .lateNotice) := if_pos h

theorem State.receiveOrder_of_known {e : Entry} (h : a.stale = false) (hfind : s.tracker.find a.piece.tag = some e) :
    s.receiveOrder a = if e.passage = none then s.refresh e a else s := by
  refine (if_neg (by simp [h])).trans ?_
  rw [hfind]
  exact if_congr Option.isNone_iff_eq_none rfl rfl

theorem State.receiveOrder_of_claim {ks : List Lane} {t1 : Nat} (h : a.stale = false)
    (hnew : ∀ e ∈ s.tracker.entries, e.piece.tag ≠ a.piece.tag) (hclaim : s.claim a = some (ks, t1)) :
    s.receiveOrder a = s.claimed a ks t1 := by
  refine (if_neg (by simp [h])).trans ?_
  rw [Tracker.find_of_new hnew, hclaim]

theorem State.receiveOrder_of_unclaimed (h : a.stale = false) (hnew : ∀ e ∈ s.tracker.entries, e.piece.tag ≠ a.piece.tag)
    (hnone : ∀ k o, s.tracker.orphans.get k = some o → ¬ a.passes k o = true) : s.receiveOrder a = s.receiveLate a := by
  have hfirst : firstOrphan s.tracker.orphans a.passes = none :=
    firstOrphan_none.mpr fun k x hx => by simpa using hnone k x hx
  refine (if_neg (by simp [h])).trans ?_
  rw [Tracker.find_of_new hnew, State.claim_of_none hfirst]

theorem State.receiveLate_of_late (h : a.initial < -(a.late : Int)) :
    s.receiveLate a = s.occur (a.fault .lateNotice) := if_pos h

theorem State.receiveLate_of_full (h : -(a.late : Int) ≤ a.initial) (hfull : 32 ≤ s.tracker.entries.length) :
    s.receiveLate a = s.occur (a.fault .listFull) := (if_neg (Int.not_lt.mpr h)).trans (if_neg (Nat.not_lt.mpr hfull))

theorem State.receiveLate_of_room (h : -(a.late : Int) ≤ a.initial) (hroom : s.tracker.entries.length < 32) :
    s.receiveLate a = { s with tracker := s.tracker.placed a none s.tracker.entries } :=
  (if_neg (Int.not_lt.mpr h)).trans (if_pos hroom)

variable {k : Lane} {o : Orphan} {m b : LaneSet} {stuck degraded : Bool}

/-- The eyes after a matched sighting on each lane of a set (R101). -/
def sightedEyes (eyes : Quad Eye) (m : LaneSet) : Quad Eye :=
  eyes.mapAt fun j e =>
    if m.getLsbD j.val = true ∧ (e.state = .normal ∨ e.state = .suspect) then { e with state := .normal, losses := 0 }
    else e

/-- The orphan records without those on the lanes of a set (R116, R117). -/
def orphansOff (os : Quad (Option Orphan)) (m : LaneSet) : Quad (Option Orphan) :=
  os.mapAt fun j x => if m.getLsbD j.val then none else x

/-- A notice of a new tag that claims the group of the first orphan it passes (R115, R116). -/
theorem State.receiveOrder_claims (hstale : a.stale = false) (hnew : ∀ e ∈ s.tracker.entries, e.piece.tag ≠ a.piece.tag)
    (hk : s.tracker.orphans.get k = some o) (hpass : a.passes k o = true)
    (hfirst : ∀ j x, s.tracker.orphans.get j = some x → a.passes j x = true → goesFirst k o j x)
    (hm : ∀ j : Lane, m.getLsbD j.val = true
      ↔ ∃ x, InGroup s.tracker.orphans a.piece.mask (Image.skew s.image) o.travel j x)
    (hb : ∀ j : Lane, b.getLsbD j.val = true
      ↔ ∃ x, InGroup s.tracker.orphans a.piece.mask (Image.skew s.image) o.travel j x ∧ x.clear = none)
    (hstuck : stuck = true
      ↔ ∃ j x, InGroup s.tracker.orphans a.piece.mask (Image.skew s.image) o.travel j x ∧ x.stuck = true)
    (hdegraded : degraded = true
      ↔ ∃ j x, InGroup s.tracker.orphans a.piece.mask (Image.skew s.image) o.travel j x ∧ x.degraded = true) :
    (b ≠ 0 → s.tracker.entries.length < 32 → s.receiveOrder a = { s with
      eyes := sightedEyes s.eyes m
      tracker := { s.tracker.placed a (some ⟨m, b, o.travel, degraded, stuck⟩) s.tracker.entries with
        orphans := orphansOff s.tracker.orphans m } })
    ∧ (b ≠ 0 → 32 ≤ s.tracker.entries.length → s.receiveOrder a = s.occur (a.fault .listFull))
    ∧ (∀ length since : Nat, b = 0 →
        (∃ j x c, InGroup s.tracker.orphans a.piece.mask (Image.skew s.image) o.travel j x ∧ x.clear = some c
          ∧ (length : Int) = (o.travel : Int) - x.travel + c.measured) →
        (∀ j x c, InGroup s.tracker.orphans a.piece.mask (Image.skew s.image) o.travel j x → x.clear = some c →
          (o.travel : Int) - x.travel + c.measured ≤ length) →
        (∃ j x c, InGroup s.tracker.orphans a.piece.mask (Image.skew s.image) o.travel j x ∧ x.clear = some c
          ∧ since = c.since) →
        (∀ j x c, InGroup s.tracker.orphans a.piece.mask (Image.skew s.image) o.travel j x → x.clear = some c →
          since ≤ c.since) →
        s.receiveOrder a = State.passageEnd
          { s with
            eyes := sightedEyes s.eyes m
            tracker := { s.tracker with orphans := orphansOff s.tracker.orphans m } } a.piece
          ⟨m, 0, min 65535 length, degraded, stuck⟩ since) := by
  have hclaim := State.claim_of_first (firstOrphan_some.mpr ⟨hk, hpass, hfirst⟩)
  obtain ⟨hmask, -⟩ := Announcement.passes_iff.mp hpass
  have hks : AreGroup s.tracker.orphans a.piece.mask (Image.skew s.image) o.travel
      (groupLanes s.tracker.orphans a.piece.mask (Image.skew s.image) k o) := fun j => mem_groupLanes hk hmask
  have hpassage := passageOf_eq hks hm hb hstuck hdegraded
  have htaken := State.takeOrphans_eq hks hm
  rw [State.receiveOrder_of_claim hstale hnew hclaim]
  refine ⟨fun hsome hroom => ?_, fun hsome hfull => ?_, fun length since hzero hlength hlonger hsince hleast => ?_⟩
  · rw [State.claimed_of_room (by rw [hpassage]; exact hsome) hroom, hpassage, htaken]
    rfl
  · rw [State.claimed_of_full (by rw [hpassage]; exact hsome) hfull]
  · obtain ⟨hmeasured, hleft⟩ := group_measured hks (fun j x hx => group_clear hb hzero hx) hlength hlonger hsince hleast
    rw [State.claimed_of_clear (by rw [hpassage]; exact hzero), hpassage, htaken, hmeasured, hleft, hzero]
    rfl

end

theorem sightedEyes_laneBit (eyes : Quad Eye) (k : Lane) : sightedEyes eyes (laneBit k) = eyes.set k
    (if (eyes.get k).state = .normal ∨ (eyes.get k).state = .suspect then
      { eyes.get k with state := .normal, losses := 0 } else eyes.get k) := by
  refine Quad.ext_get fun j => ?_
  rw [sightedEyes, Quad.get_mapAt, Quad.get_set, laneBit_getLsbD]
  by_cases hjk : j = k
  · subst hjk
    simp
  · simp [hjk]

/-- Settles O35: the steps of R77 in their order, with a claim as the group of the first orphan that passes. -/
theorem receiveOrder : Obligations.ReceiveOrder := by
  intro s a hlaw fault entry placed claims isNew
  have hclaims (k : Lane) (o : Orphan) : a.passes k o = true ↔ claims k o := Announcement.passes_iff
  refine ⟨State.receiveOrder_of_stale, fun l e r hfresh hentries htag => ?known, fun hfresh hnew hnone => ?unclaimed,
    fun k o hfresh hnew hk hclaim halone => ?lone, fun k o m b stuck degraded hfresh hnew hk hclaim hfirst => ?group⟩
  case known =>
    rw [State.receiveOrder_of_known hfresh (hlaw.find hentries htag)]
    refine ⟨fun hawaited => ?_, fun hpassing => if_neg hpassing⟩
    rw [if_pos hawaited, State.refresh, hlaw.remove hentries]
    rfl
  case unclaimed =>
    rw [State.receiveOrder_of_unclaimed hfresh hnew fun k o ho => mt (hclaims k o).mp (hnone k o ho)]
    exact ⟨State.receiveLate_of_late, State.receiveLate_of_full, State.receiveLate_of_room⟩
  case group =>
    intro skew claimed hm hb hstuck hdegraded
    exact State.receiveOrder_claims hfresh hnew hk ((hclaims k o).mpr hclaim)
      (fun j x hx hpass => hfirst j x hx ((hclaims j x).mp hpass)) hm hb hstuck hdegraded
  case lone =>
    intro bit e eyes orphans
    obtain ⟨hmask, -⟩ := id hclaim
    have hfirst (j : Lane) (x : Orphan) (hx : s.tracker.orphans.get j = some x) (hpass : a.passes j x = true) :
        goesFirst k o j x := by
      by_cases hjk : j = k
      · subst hjk
        obtain rfl := Option.some.inj (hx.symm.trans hk)
        exact .inr ⟨rfl, le_rfl⟩
      · rw [halone j hjk ((hclaims j x).mp hpass).1] at hx
        exact absurd hx (by simp)
    have hgroup := State.receiveOrder_claims (m := bit) hfresh hnew hk ((hclaims k o).mpr hclaim) hfirst
      (alone_lanes hk hmask halone) (alone_blocked hk hmask halone)
      (exists_inGroup_alone hk hmask halone (P := fun _ x => x.stuck = true)).symm
      (exists_inGroup_alone hk hmask halone (P := fun _ x => x.degraded = true)).symm
    have heyes : sightedEyes s.eyes bit = eyes := sightedEyes_laneBit s.eyes k
    have horphans : orphansOff s.tracker.orphans bit = orphans := mapAt_laneBit_none s.tracker.orphans k
    rw [heyes, horphans] at hgroup
    obtain ⟨hblocked, hfull, hcleared⟩ := hgroup
    refine ⟨fun hclear hroom => ?_, fun hclear hlong => ?_, fun c hc hsmall => ?_⟩
    · rw [if_pos hclear] at hblocked
      exact hblocked (laneBit_ne_zero k) hroom
    · rw [if_pos hclear] at hfull
      exact hfull (laneBit_ne_zero k) hlong
    · have hmember : InGroup s.tracker.orphans a.piece.mask (Image.skew s.image) o.travel k o :=
        (inGroup_alone hk hmask halone).mpr ⟨rfl, rfl⟩
      have hsame {j : Lane} {x : Orphan} {d : OrphanClear}
          (hx : InGroup s.tracker.orphans a.piece.mask (Image.skew s.image) o.travel j x) (hd : x.clear = some d) :
          x = o ∧ d = c := by
        obtain ⟨-, rfl⟩ := (inGroup_alone hk hmask halone).mp hx
        exact ⟨rfl, Option.some.inj (hd.symm.trans hc)⟩
      rw [hcleared c.measured c.since (if_neg (by simp [hc])) ⟨k, o, c, hmember, hc, by omega⟩
        (fun j x d hx hd => by obtain ⟨rfl, rfl⟩ := hsame hx hd; omega) ⟨k, o, c, hmember, hc, rfl⟩
        (fun j x d hx hd => (hsame hx hd).2 ▸ le_rfl), Nat.min_eq_right hsmall]

end Sys2Proof.Machine
end

section
/-! PROOFS. Notices at the tracker of a CHECK or SORT station (R73 to R77, R91, R92). -/

namespace Sys2Proof.Machine

open Sys2Proof

variable {s t u : State}

/-! ### The drop test at a station that feeds nothing (R134) -/

theorem State.evalDrop_of_not_feed (h : s.role ≠ some .feed) : s.evalDrop = s := if_neg fun hfeed => h hfeed.1

theorem reviewDrop_of_not_feed (h : t.role ≠ some .feed) : reviewDrop s t = t := by
  rw [reviewDrop, State.evalDrop_of_not_feed h, ite_self]

theorem State.not_feed_of_tracks (h : s.role = some .check ∨ s.role = some .sort) : s.role ≠ some .feed := by
  rcases h with h | h <;> rw [h] <;> decide

/-! ### What a DROP and a PASS announce (R22, R27, R74 to R76) -/

theorem tolerance_eq (fixed perMille : Nat) (o : Int) :
    Machine.tolerance fixed perMille o = min 2047 (fixed + (o.toNat * perMille + 999) / 1000) := by
  simp [Machine.tolerance, ceilDiv, Config.maxTolerance]

theorem dropAnnounces_eq (im : Image) (o : Int) (tag : Tag) (p : Nat) (mask : LaneSet) (b : Bool) (l : Nat) (st : Stamp) :
    dropAnnounces im o tag p mask b l st =
      ⟨⟨tag, p, mask, l, none, ⟨b, false, false, false, false, false⟩⟩, max (-32768) (min 32767 (o - st.age)),
        min 2047 (Image.word im 0x012 + (o.toNat * Image.byte im 0x00F + 999) / 1000),
        min 2047 (Image.word im 0x014 + (o.toNat * Image.byte im 0x010 + 999) / 1000), st.stale⟩ := by
  rw [dropAnnounces, tolerance_eq, tolerance_eq]
  rfl

theorem passAnnounces_eq (im : Image) (o : Int) (tag : Tag) (p : Nat) (mask : LaneSet) (f : Flags) (l : Nat) (st : Stamp) :
    passAnnounces im o tag p mask f l st =
      ⟨⟨tag, p, mask, (Image.profile im p).nominal, if f.unverified then none else some l, f⟩,
        max (-32768) (min 32767 (o - l - st.age)),
        min 2047 (Image.word im 0x012 + (o.toNat * Image.byte im 0x00F + 999) / 1000),
        min 2047 (Image.word im 0x014 + (o.toNat * Image.byte im 0x010 + 999) / 1000), st.stale⟩ := by
  rw [passAnnounces, tolerance_eq, tolerance_eq]
  rfl

section
variable {a ident p l : Nat} {o : Int} {tag : Tag} {m : LaneSet} {b : Bool} {f : Flags} {st : Stamp}

theorem State.trackDrop_of_right (h : fieldCause (m &&& Image.lanes s.image) tag p l = none) :
    s.trackDrop ident o tag p m b l st
      = s.receiveOrder (dropAnnounces s.image o tag p (m &&& Image.lanes s.image) b l st) := by
  simp only [State.trackDrop, h]

theorem State.trackDrop_of_cause {c : Nat} (h : fieldCause (m &&& Image.lanes s.image) tag p l = some c) :
    s.trackDrop ident o tag p m b l st = s.occur (peerFault c ident (peerTag tag)) := by
  simp only [State.trackDrop, h]

theorem State.trackPass_of_right (h : fieldCause (m &&& Image.lanes s.image) tag p 0 = none) :
    s.trackPass ident o tag p m f l st
      = s.receiveOrder (passAnnounces s.image o tag p (m &&& Image.lanes s.image) f l st) := by
  simp only [State.trackPass, h]

theorem State.trackPass_of_cause {c : Nat} (h : fieldCause (m &&& Image.lanes s.image) tag p 0 = some c) :
    s.trackPass ident o tag p m f l st = s.occur (peerFault c ident (peerTag tag)) := by
  simp only [State.trackPass, h]

theorem fieldCause_of_no_origin {mask : LaneSet} (h : mask ≠ 0) (horigin : tag.origin = 0) :
    fieldCause mask tag p l = some 9 := fieldCause_of_outside h (.inl horigin)

/-! ### A LOSS (R91, R92) -/

theorem State.trackLoss_of_entry {e : Entry} (h : s.tracker.find tag = some e) : s.trackLoss tag b =
    if b then State.lostBatchClose { s with tracker := s.tracker.remove e } e.piece
    else { s with tracker := s.tracker.remove e } := by
  simp only [State.trackLoss, h]

theorem State.trackLoss_of_none (h : s.tracker.find tag = none) : s.trackLoss tag b = s := by
  simp only [State.trackLoss, h]

/-- A LOSS with no lost batch close to take removes the entry of its tag, if there is one. -/
theorem State.trackLoss_eq (hlaw : ListLaw s) (hbatch : b = false ∨ s.role ≠ some .sort) : s.trackLoss tag b
    = { s with tracker := { s.tracker with entries := s.tracker.entries.filter fun e => e.piece.tag ≠ tag } } := by
  by_cases hnew : ∀ x ∈ s.tracker.entries, x.piece.tag ≠ tag
  · rw [State.trackLoss_of_none (Tracker.find_of_new hnew),
      List.filter_eq_self.mpr fun x hx => decide_eq_true (hnew x hx)]
  · push Not at hnew
    obtain ⟨e, he, rfl⟩ := hnew
    obtain ⟨l, r, hentries, -⟩ := hlaw.split_of_mem he
    rw [State.trackLoss_of_entry (hlaw.find hentries rfl), hlaw.remove hentries, hlaw.filter_tag hentries]
    rcases hbatch with rfl | hrole
    · rfl
    · rw [State.lostBatchClose_of_not_sort (by exact hrole), ite_self]

end

/-! ### The frames -/

section
variable {bits : List Bool} {failed : Bool} {a : Nat} {o : Int} {tag : Tag} {p l : Nat} {m : LaneSet} {b : Bool} {f : Flags}
  {st : Stamp}

theorem exec_drop_at_tracker (hreading : s.reading failed) (hline : s.onLine = true) (hpeer : a ≠ Image.address s.image)
    (hrole : s.role = some .check ∨ s.role = some .sort) (hoffset : Image.offsetOf s.image a = some o)
    (hbits : carries bits a (.drop tag p m b l st)) :
    exec (.receivedFrameEnd bits) s = .next (s.waitIdle.trackDrop (5 * 16 + a) o tag p m b l st) := by
  have hhand : s.waitIdle.handNotice a (5 * 16 + a) (.drop tag p m b l st)
      = s.waitIdle.trackDrop (5 * 16 + a) o tag p m b l st := by
    have hoffset' : Image.offsetOf s.waitIdle.image a = some o := hoffset
    have hrole' : s.waitIdle.role = some .check ∨ s.waitIdle.role = some .sort := hrole
    rcases hrole' with h | h <;> simp only [State.handNotice, hoffset', State.handDrop, h]
  refine (exec_receivedFrameEnd_of_peer hreading hline hpeer hbits).trans (congrArg Host.Outcome.next ?_)
  refine (congrArg (reviewDrop s) hhand).trans (reviewDrop_of_not_feed ?_)
  rw [(State.trackDrop_within _ _ _ _ _ _ _ _ _).role]
  exact State.not_feed_of_tracks hrole

theorem exec_pass_at_tracker (hreading : s.reading failed) (hline : s.onLine = true) (hpeer : a ≠ Image.address s.image)
    (hrole : s.role = some .check ∨ s.role = some .sort) (hoffset : Image.offsetOf s.image a = some o)
    (hbits : carries bits a (.pass tag p m f l st)) :
    exec (.receivedFrameEnd bits) s = .next (s.waitIdle.trackPass (4 * 16 + a) o tag p m f l st) := by
  have hhand : s.waitIdle.handNotice a (4 * 16 + a) (.pass tag p m f l st)
      = s.waitIdle.trackPass (4 * 16 + a) o tag p m f l st := by
    have hoffset' : Image.offsetOf s.waitIdle.image a = some o := hoffset
    simp only [State.handNotice, hoffset']
    exact if_pos (State.tracks_iff.mpr hrole)
  refine (exec_receivedFrameEnd_of_peer hreading hline hpeer hbits).trans (congrArg Host.Outcome.next ?_)
  refine (congrArg (reviewDrop s) hhand).trans (reviewDrop_of_not_feed ?_)
  rw [(State.trackPass_within _ _ _ _ _ _ _ _ _).role]
  exact State.not_feed_of_tracks hrole

theorem exec_loss_at_tracker (hreading : s.reading failed) (hline : s.onLine = true) (hpeer : a ≠ Image.address s.image)
    (hrole : s.role = some .check ∨ s.role = some .sort) (hbits : carries bits a (.loss tag m b)) :
    exec (.receivedFrameEnd bits) s = .next (s.waitIdle.trackLoss tag b) := by
  have hhand : s.waitIdle.handNotice a (3 * 16 + a) (.loss tag m b) = s.waitIdle.trackLoss tag b :=
    if_pos (State.tracks_iff.mpr hrole)
  refine (exec_receivedFrameEnd_of_peer hreading hline hpeer hbits).trans (congrArg Host.Outcome.next ?_)
  refine (congrArg (reviewDrop s) hhand).trans (reviewDrop_of_not_feed ?_)
  rw [(State.trackLoss_within _ _ _).role]
  exact State.not_feed_of_tracks hrole

theorem exec_loss_at_feed (hreading : s.reading failed) (hline : s.onLine = true) (hpeer : a ≠ Image.address s.image)
    (hrole : s.role = some .feed) (hbits : carries bits a (.loss tag m b)) :
    exec (.receivedFrameEnd bits) s = .next s.waitIdle := by
  have hhand : s.waitIdle.handNotice a (3 * 16 + a) (.loss tag m b) = s.waitIdle :=
    if_neg (by rw [State.tracks_of_feed (by exact hrole)]; exact Bool.false_ne_true)
  refine (exec_receivedFrameEnd_of_peer hreading hline hpeer hbits).trans (congrArg Host.Outcome.next ?_)
  refine (congrArg (reviewDrop s) hhand).trans ((reviewDrop_of_holdsOff (s := s) (t := s.waitIdle) (.of_same rfl rfl)).trans (if_pos rfl))

end

/-- Settles O34: the field check, then the receive order with what the notice announces; and a LOSS. -/
theorem noticesAtTracker : Obligations.NoticesAtTracker := by
  intro s bits failed a hreading hline hpeer waits tolerance announced peer
  refine ⟨fun o t p m l age stale hrole hoffset ho => ?fields, fun o t p m b l age hrole hoffset ho hbits hmask horigin hl
    hnew hnone hroom => ?enters, fun t m b hbits hlaw => ?loss⟩
  case fields =>
    intro mask
    refine ⟨fun b hbits => ?_, fun f hbits => ?_⟩
    · have hexec : exec (.receivedFrameEnd bits) s = .next (waits.trackDrop (5 * 16 + a) o t p m b l ⟨age, stale⟩) :=
        exec_drop_at_tracker hreading hline hpeer hrole hoffset hbits
      have hcause {c : Nat} (hc : fieldCause mask t p l = some c) :
          exec (.receivedFrameEnd bits) s = .next (peer c 5 t) := by
        rw [hexec, State.trackDrop_of_cause (s := waits) hc, peerTag_eq]
        rfl
      refine ⟨fun hmask horigin hl => ?_, fun hmask => hcause (fieldCause_of_no_lane hmask),
        fun hmask houtside => hcause (fieldCause_of_outside hmask houtside)⟩
      rw [hexec, State.trackDrop_of_right (s := waits) (fieldCause_of_right hmask horigin hbits.drop_profile_lt hl),
        dropAnnounces_eq]
      rfl
    · have hexec : exec (.receivedFrameEnd bits) s = .next (waits.trackPass (4 * 16 + a) o t p m f l ⟨age, stale⟩) :=
        exec_pass_at_tracker hreading hline hpeer hrole hoffset hbits
      have hcause {c : Nat} (hc : fieldCause mask t p 0 = some c) :
          exec (.receivedFrameEnd bits) s = .next (peer c 4 t) := by
        rw [hexec, State.trackPass_of_cause (s := waits) hc, peerTag_eq]
        rfl
      refine ⟨fun hmask horigin => ?_, fun hmask => hcause (fieldCause_of_no_lane hmask),
        fun hmask horigin => hcause (fieldCause_of_no_origin hmask horigin)⟩
      rw [hexec, State.trackPass_of_right (s := waits)
        (fieldCause_of_right hmask horigin hbits.pass_profile_lt (Nat.zero_le _)), passAnnounces_eq]
      rfl
  case enters =>
    intro part early late distance hdistance
    have hright := fieldCause_of_right hmask horigin hbits.drop_profile_lt hl
    have hexec : exec (.receivedFrameEnd bits) s = .next (waits.trackDrop (5 * 16 + a) o t p m b l ⟨age, false⟩) :=
      exec_drop_at_tracker hreading hline hpeer hrole hoffset hbits
    rw [hexec, State.trackDrop_of_right (s := waits) hright, dropAnnounces_eq,
      State.receiveOrder_of_unclaimed (s := waits) rfl hnew
        (fun k o' ho' => absurd ((hnone k).symm.trans ho') (by simp)),
      State.receiveLate_of_room (s := waits) hdistance hroom]
    rfl
  case loss =>
    refine ⟨fun hquiet => ?_, fun hrole => exec_loss_at_feed hreading hline hpeer hrole hbits, fun hrole hb => ?_⟩
    · have hrole : s.role = some .check ∨ s.role = some .sort := hquiet.imp id And.left
      have hbatch : b = false ∨ s.role ≠ some .sort := by
        rcases hquiet with h | ⟨-, h⟩
        · exact .inr (by rw [h]; decide)
        · exact .inl h
      have hexec : exec (.receivedFrameEnd bits) s = .next (waits.trackLoss t b) :=
        exec_loss_at_tracker hreading hline hpeer hrole hbits
      rw [hexec, State.trackLoss_eq (s := waits) hlaw hbatch]
    · have hexec := exec_loss_at_tracker hreading hline hpeer (.inr hrole) hbits
      refine ⟨fun l e r hentries htag => ?_, fun hnew => ?_⟩
      · have hfind : s.waitIdle.tracker.find t = some e := hlaw.find hentries htag
        have hremove : s.waitIdle.tracker.remove e = { s.tracker with entries := l ++ r } := hlaw.remove hentries
        rw [hexec, State.trackLoss_of_entry hfind, hremove, if_pos hb]
        rfl
      · rw [hexec, State.trackLoss_of_none (Tracker.find_of_new (by exact hnew))]
        rfl

end Sys2Proof.Machine
end

section
/-! PROOFS. Strays: which orphans are adopted, in which order and with which others (R117, R118, R18). -/

namespace Sys2Proof.Machine

open Sys2Proof

variable {s t u : State}

/-! ### An adoption by its parts (R117, R118) -/

/-- The station with a tag drawn and STRAY reported (R18, R117). -/
def State.strayTold (s : State) (k : Lane) (travel : Nat) : State :=
  s.draw.2.occur ⟨.stray, some s.draw.1, some k, BitVec.ofNat 16 travel⟩

theorem State.strayTold_tracker (k : Lane) (travel : Nat) : (s.strayTold k travel).tracker = s.tracker :=
  (State.occur_quiet s.draw.2 _).tracker

theorem State.strayTold_role (k : Lane) (travel : Nat) : (s.strayTold k travel).role = s.role :=
  (State.occur_quiet s.draw.2 _).role

/-- The station with the orphans of the lanes gone (R117). -/
def State.strayGone (s : State) (k : Lane) (travel : Nat) (ks : List Lane) : State :=
  { s.strayTold k travel with
    tracker := { (s.strayTold k travel).tracker with orphans := clearOrphans s.tracker.orphans ks } }

/-- The lanes that leave with an orphan adopted on lane k. -/
def State.strayLanes (s : State) (k : Lane) (o : Orphan) : List Lane :=
  groupLanes s.tracker.orphans 15#4 (Image.skew s.image) k o

section
variable {k : Lane} {o : Orphan}

theorem State.adopt_eq (k : Lane) (o : Orphan) : s.adopt k o =
    let ks := s.strayLanes k o
    let g := passageOf s.tracker.orphans ks o.travel
    let p := strayPiece s.image s.draw.1 g.seen g.stuck
    if g.blocked = 0 then
      (s.strayGone k o.travel ks).strayEnd p { g with travel := clearLength (orphansOn s.tracker.orphans ks) o.travel }
        (leastSince (orphansOn s.tracker.orphans ks))
    else { s.strayGone k o.travel ks with
      tracker := { (s.strayGone k o.travel ks).tracker with
        adopted := (s.strayGone k o.travel ks).tracker.adopted ++ [⟨p, g⟩] } } := by
  have htracker := State.strayTold_tracker (s := s) k o.travel
  have hgone (ks : List Lane) : s.strayGone k o.travel ks =
      { s.strayTold k o.travel with
        tracker := { (s.strayTold k o.travel).tracker with
          orphans := clearOrphans (s.strayTold k o.travel).tracker.orphans ks } } := by
    rw [State.strayGone, htracker]
  simp only [hgone]
  rfl

/-! ### The records that remain (R117) -/

theorem State.withSort_tracker (r : SortUnit × List Occurrence) : (s.withSort r).tracker = s.tracker :=
  (State.occurAll_quiet _ _).tracker

theorem State.sortPiece_tracker (p : SortPiece) : (s.sortPiece p).tracker = s.tracker := by
  unfold State.sortPiece
  split
  · exact State.withSort_tracker _
  · rfl

theorem State.handOn_tracker (p : Piece) (degraded : Bool) (since : Nat) :
    (s.handOn p degraded since).tracker = s.tracker := by
  unfold State.handOn
  split
  · exact (State.add_quiet _ _ _).tracker
  · exact State.sortPiece_tracker _
  · rfl
  · rfl

theorem State.adopt_orphans (k : Lane) (o : Orphan) :
    (s.adopt k o).tracker.orphans = clearOrphans s.tracker.orphans (s.strayLanes k o) := by
  rw [State.adopt_eq]
  simp only []
  split
  · exact congrArg Tracker.orphans (State.handOn_tracker _ _ _)
  · rfl

theorem clearOrphans_get {os : Quad (Option Orphan)} {ks : List Lane} {j : Lane} :
    (clearOrphans os ks).get j = if j ∈ ks then none else os.get j := by
  rw [clearOrphans, Quad.get_mapAt]
  exact if_congr List.contains_iff_mem rfl rfl

theorem State.mem_strayLanes_self : k ∈ s.strayLanes k o :=
  List.mem_filter.mpr ⟨mem_lanes k, by simp⟩

/-! ### The order of adoptions (R117) -/

/-- The orphan of lane j, if there is one, is past the grace. -/
def State.pastGrace (s : State) (j : Lane) : Bool :=
  (s.tracker.orphans.get j).any fun x => decide (Image.grace s.image < x.travel)

theorem State.adoptPastGrace_of_none (h : ∀ (j : Lane) (x : Orphan), s.tracker.orphans.get j = some x →
    x.travel ≤ Image.grace s.image) (n : Nat) : s.adoptPastGrace n = s := by
  cases n with
  | zero => rfl
  | succ n =>
    have hfirst : firstOrphan s.tracker.orphans (fun _ o => decide (Image.grace s.image < o.travel)) = none :=
      firstOrphan_none.mpr fun j x hx => decide_eq_false (Nat.not_lt.mpr (h j x hx))
    rw [State.adoptPastGrace, hfirst]

theorem State.adoptPastGrace_of_first {n : Nat} (hk : s.tracker.orphans.get k = some o)
    (hgrace : Image.grace s.image < o.travel)
    (hfirst : ∀ j x, s.tracker.orphans.get j = some x → x.travel < o.travel ∨ (x.travel = o.travel ∧ k ≤ j)) :
    s.adoptPastGrace (n + 1) = (s.adopt k o).adoptPastGrace n := by
  have hsome : firstOrphan s.tracker.orphans (fun _ o => decide (Image.grace s.image < o.travel)) = some (k, o) :=
    firstOrphan_some.mpr ⟨hk, decide_eq_true hgrace, fun j x hx _ => hfirst j x hx⟩
  rw [State.adoptPastGrace, hsome]

theorem State.pastGrace_iff {j : Lane} : s.pastGrace j = true
    ↔ ∃ x, s.tracker.orphans.get j = some x ∧ Image.grace s.image < x.travel := by
  rw [State.pastGrace, Option.any_eq_true]
  simp only [decide_eq_true_eq]

/-- An adoption leaves fewer lanes past the grace. -/
theorem State.adopt_pastGrace_lt (h : s.pastGrace k = true) :
    (lanes.filter (s.adopt k o).pastGrace).length < (lanes.filter s.pastGrace).length := by
  have hsub : ∀ j, (s.adopt k o).pastGrace j = true → s.pastGrace j = true ∧ j ≠ k := by
    intro j hj
    obtain ⟨x, hx, hgrace⟩ := State.pastGrace_iff.mp hj
    rw [State.adopt_orphans, clearOrphans_get] at hx
    split_ifs at hx with hout
    rw [(State.adopt_within s k o).image] at hgrace
    exact ⟨State.pastGrace_iff.mpr ⟨x, hx, hgrace⟩, fun hjk => hout (hjk ▸ State.mem_strayLanes_self)⟩
  have hfilter : lanes.filter (s.adopt k o).pastGrace
      = (lanes.filter s.pastGrace).filter (s.adopt k o).pastGrace := by
    rw [List.filter_filter]
    refine List.filter_congr fun j _ => ?_
    cases hj : (s.adopt k o).pastGrace j with
    | false => rfl
    | true => rw [(hsub j hj).1]; rfl
  rw [hfilter]
  refine List.length_filter_lt_length_iff_exists.mpr ⟨k, List.mem_filter.mpr ⟨mem_lanes k, h⟩, fun hk => ?_⟩
  exact (hsub k hk).2 rfl

theorem State.adoptPastGrace_left {n : Nat} (hn : (lanes.filter s.pastGrace).length ≤ n) (j : Lane) :
    (s.adoptPastGrace n).pastGrace j = false := by
  induction n generalizing s with
  | zero =>
    rw [State.adoptPastGrace, ← Bool.not_eq_true]
    exact fun hj => List.ne_nil_of_mem (List.mem_filter.mpr ⟨mem_lanes j, hj⟩) (List.length_eq_zero_iff.mp (Nat.le_zero.mp hn))
  | succ n ih =>
    rw [State.adoptPastGrace]
    split
    next hnone =>
      rw [← Bool.not_eq_true]
      intro hj
      obtain ⟨x, hx, hgrace⟩ := State.pastGrace_iff.mp hj
      exact absurd ((decide_eq_true hgrace).symm.trans (firstOrphan_none.mp hnone j x hx)) (by decide)
    next k o hsome =>
      obtain ⟨hk, hgrace, -⟩ := firstOrphan_some.mp hsome
      have hpast : s.pastGrace k = true := State.pastGrace_iff.mpr ⟨o, hk, of_decide_eq_true hgrace⟩
      exact ih (by have := State.adopt_pastGrace_lt (o := o) hpast; omega)

end

/-! ### An adoption of a group (R116 to R118) -/

section
variable {k : Lane} {o : Orphan} {m b : LaneSet} {stuck degraded : Bool}

theorem allLanes_getLsbD (j : Lane) : (15#4).getLsbD j.val = true := by
  revert j
  decide

theorem inGroup_all_iff {os : Quad (Option Orphan)} {skew t1 : Nat} {j : Lane} {x : Orphan} :
    InGroup os 15#4 skew t1 j x ↔ os.get j = some x ∧ x.travel ≤ t1 + skew ∧ t1 ≤ x.travel + skew := by
  rw [InGroup, allLanes_getLsbD, eq_self, true_and]

/-- The group that an adoption takes has the lanes and marks given. -/
structure StrayGroup (s : State) (k : Lane) (o : Orphan) (m b : LaneSet) (stuck degraded : Bool) : Prop where
  first : s.tracker.orphans.get k = some o
  lanes : ∀ j : Lane, m.getLsbD j.val = true
    ↔ ∃ x, InGroup s.tracker.orphans 15#4 (Image.skew s.image) o.travel j x
  blocked : ∀ j : Lane, b.getLsbD j.val = true
    ↔ ∃ x, InGroup s.tracker.orphans 15#4 (Image.skew s.image) o.travel j x ∧ x.clear = none
  stuck : stuck = true
    ↔ ∃ j x, InGroup s.tracker.orphans 15#4 (Image.skew s.image) o.travel j x ∧ x.stuck = true
  degraded : degraded = true
    ↔ ∃ j x, InGroup s.tracker.orphans 15#4 (Image.skew s.image) o.travel j x ∧ x.degraded = true

theorem StrayGroup.areGroup (h : StrayGroup s k o m b stuck degraded) :
    AreGroup s.tracker.orphans 15#4 (Image.skew s.image) o.travel (s.strayLanes k o) :=
  fun _ => mem_groupLanes h.first (allLanes_getLsbD k)

theorem StrayGroup.passageOf (h : StrayGroup s k o m b stuck degraded) :
    passageOf s.tracker.orphans (s.strayLanes k o) o.travel = ⟨m, b, o.travel, degraded, stuck⟩ :=
  passageOf_eq h.areGroup h.lanes h.blocked h.stuck h.degraded

theorem StrayGroup.gone (h : StrayGroup s k o m b stuck degraded) : s.strayGone k o.travel (s.strayLanes k o) =
    { s.strayTold k o.travel with
      tracker := { (s.strayTold k o.travel).tracker with orphans := orphansOff s.tracker.orphans m } } := by
  rw [State.strayGone, clearOrphans_eq h.areGroup h.lanes]
  rfl

/-- Of a group with a blocked orphan an adopted passage is made (R118). -/
theorem StrayGroup.adopt_of_blocked (h : StrayGroup s k o m b stuck degraded) (hb : b ≠ 0) : s.adopt k o =
    { s.strayTold k o.travel with
      tracker := { (s.strayTold k o.travel).tracker with
        orphans := orphansOff s.tracker.orphans m
        adopted := s.tracker.adopted ++ [⟨strayPiece s.image s.draw.1 m stuck, ⟨m, b, o.travel, degraded, stuck⟩⟩] } } := by
  rw [State.adopt_eq]
  simp only [h.passageOf, if_neg hb, h.gone]
  rw [State.strayTold_tracker]

/-- A clear group is handed on at once (R118). -/
theorem StrayGroup.adopt_of_clear (h : StrayGroup s k o m b stuck degraded) (hb : b = 0) {length since : Nat}
    (hlength : ∃ j x c, InGroup s.tracker.orphans 15#4 (Image.skew s.image) o.travel j x ∧ x.clear = some c
      ∧ (length : Int) = (o.travel : Int) - x.travel + c.measured)
    (hlonger : ∀ j x c, InGroup s.tracker.orphans 15#4 (Image.skew s.image) o.travel j x → x.clear = some c →
      (o.travel : Int) - x.travel + c.measured ≤ length)
    (hsince : ∃ j x c, InGroup s.tracker.orphans 15#4 (Image.skew s.image) o.travel j x ∧ x.clear = some c
      ∧ since = c.since)
    (hleast : ∀ j x c, InGroup s.tracker.orphans 15#4 (Image.skew s.image) o.travel j x → x.clear = some c →
      since ≤ c.since) :
    s.adopt k o = State.strayEnd
      { s.strayTold k o.travel with
        tracker := { (s.strayTold k o.travel).tracker with orphans := orphansOff s.tracker.orphans m } }
      (strayPiece s.image s.draw.1 m stuck) ⟨m, b, min 65535 length, degraded, stuck⟩ since := by
  obtain ⟨hmeasured, hleft⟩ := group_measured h.areGroup (fun j x hx => group_clear h.blocked hb hx) hlength hlonger
    hsince hleast
  rw [State.adopt_eq]
  simp only [h.passageOf, if_pos hb, h.gone, hmeasured, hleft]

theorem strayGroup_alone (hk : s.tracker.orphans.get k = some o)
    (halone : ∀ j : Lane, j ≠ k → s.tracker.orphans.get j = none) :
    StrayGroup s k o (laneBit k) (if o.clear = none then laneBit k else 0) o.stuck o.degraded := by
  have hall := allLanes_getLsbD k
  have hothers (j : Lane) (hj : j ≠ k) (_ : (15#4).getLsbD j.val = true) := halone j hj
  exact ⟨hk, alone_lanes hk hall hothers, alone_blocked hk hall hothers,
    (exists_inGroup_alone hk hall hothers (P := fun _ x => x.stuck = true)).symm,
    (exists_inGroup_alone hk hall hothers (P := fun _ x => x.degraded = true)).symm⟩

end

/-- Settles O11: which orphan is adopted next, what its group makes, and how an adopted passage ends. -/
theorem straysAdopted : Obligations.StraysAdopted := by
  intro s k bit grace tag reported stray
  refine ⟨fun h => State.adoptPastGrace_of_none h 4, fun o hk hgrace halone => ?alone,
    fun o n hk hgrace hfirst => State.adoptPastGrace_of_first hk hgrace hfirst, fun x hx => ?left,
    fun o m b stuck degraded hk => ?group, fun o hk halone => ?lone, fun o m hk hm hfresh => ?fresh,
    fun l a r hrole hadopted hblocked hl hentries => ?ends⟩
  case alone =>
    rw [State.adoptPastGrace_of_first (n := 3) hk hgrace fun j x hx => ?_, State.adoptPastGrace_of_none fun j x hx => ?_]
    · rw [State.adopt_orphans, clearOrphans_get] at hx
      split_ifs at hx with hout
      rw [halone j fun hjk => hout (hjk ▸ State.mem_strayLanes_self)] at hx
      exact absurd hx (by simp)
    · by_cases hjk : j = k
      · subst hjk
        obtain rfl := Option.some.inj (hx.symm.trans hk)
        exact .inr ⟨rfl, le_rfl⟩
      · rw [halone j hjk] at hx
        exact absurd hx (by simp)
  case left =>
    have hleft := State.adoptPastGrace_left (s := s) (n := 4) (List.length_filter_le _ _) k
    rw [← Bool.not_eq_true, State.pastGrace_iff, (s.adoptPastGrace_within 4).image] at hleft
    exact Nat.not_lt.mp fun hgrace => hleft ⟨x, hx, hgrace⟩
  case group =>
    intro skew merged hm hb hstuck hdegraded u gone
    have hmerged {j : Lane} {x : Orphan} :
        InGroup s.tracker.orphans 15#4 (Image.skew s.image) o.travel j x ↔ merged j x := inGroup_all_iff
    have hgroup : StrayGroup s k o m b stuck degraded :=
      ⟨hk, by simpa only [hmerged] using hm, by simpa only [hmerged] using hb, by simpa only [hmerged] using hstuck,
        by simpa only [hmerged] using hdegraded⟩
    refine ⟨fun hsome => hgroup.adopt_of_blocked hsome, fun length since hzero hlength hlonger hsince hleast => ?_⟩
    have hclear := hgroup.adopt_of_clear (length := length) (since := since) hzero (by simpa only [hmerged] using hlength)
      (by simpa only [hmerged] using hlonger) (by simpa only [hmerged] using hsince) (by simpa only [hmerged] using hleast)
    refine ⟨fun hrole => ?_, fun hrole => ?_⟩
    · rw [hclear, State.strayEnd_of_check (by exact (State.strayTold_role k o.travel).trans hrole)]
      simp only [strayPiece, Bool.or_self]
      rfl
    · rw [hclear, State.strayEnd_of_sort (by exact (State.strayTold_role k o.travel).trans hrole)]
      simp only [strayPiece, Bool.or_self]
      rfl
  case lone =>
    intro u gone
    have hgroup := strayGroup_alone hk halone
    have horphans : orphansOff s.tracker.orphans (laneBit k) = s.tracker.orphans.set k none :=
      mapAt_laneBit_none s.tracker.orphans k
    refine ⟨fun hclear => ?_, fun c hc hsmall hrole => ?_⟩
    · rw [if_pos hclear] at hgroup
      rw [hgroup.adopt_of_blocked (laneBit_ne_zero k), horphans]
      rfl
    · have hmember {j : Lane} {x : Orphan} : InGroup s.tracker.orphans 15#4 (Image.skew s.image) o.travel j x
          ↔ j = k ∧ x = o := inGroup_alone hk (allLanes_getLsbD k) fun j hj _ => halone j hj
      have hsame {j : Lane} {x : Orphan} {d : OrphanClear}
          (hx : InGroup s.tracker.orphans 15#4 (Image.skew s.image) o.travel j x) (hd : x.clear = some d) :
          x = o ∧ d = c := by
        obtain ⟨-, rfl⟩ := hmember.mp hx
        exact ⟨rfl, Option.some.inj (hd.symm.trans hc)⟩
      have hself := hmember.mpr ⟨rfl, rfl⟩
      rw [hgroup.adopt_of_clear (length := c.measured) (since := c.since) (if_neg (by simp [hc]))
          ⟨k, o, c, hself, hc, by omega⟩ (fun j x d hx hd => by obtain ⟨rfl, rfl⟩ := hsame hx hd; omega)
          ⟨k, o, c, hself, hc, rfl⟩ (fun j x d hx hd => (hsame hx hd).2 ▸ le_rfl), horphans,
        State.strayEnd_of_check (by exact (State.strayTold_role k o.travel).trans hrole)]
      simp only [strayPiece, Bool.or_self, Nat.min_eq_right hsmall]
      rfl
  case fresh =>
    intro u
    have hmerged {j : Lane} {x : Orphan} : InGroup s.tracker.orphans 15#4 (Image.skew s.image) o.travel j x
      ↔ s.tracker.orphans.get j = some x ∧ x.travel ≤ o.travel + Image.byte s.image 0x00E
        ∧ o.travel ≤ x.travel + Image.byte s.image 0x00E := inGroup_all_iff
    have hgroup : StrayGroup s k o m m false false := by
      refine ⟨hk, by simpa only [hmerged] using hm, fun j => ?_, ?_, ?_⟩
      · rw [hm j]
        simp only [hmerged]
        exact exists_congr fun x => ⟨fun h => ⟨h, (hfresh j x h.1).1⟩, And.left⟩
      · exact iff_of_false Bool.false_ne_true fun ⟨j, x, hx, hstuck⟩ => by simp [(hfresh j x hx.1).2.1] at hstuck
      · exact iff_of_false Bool.false_ne_true fun ⟨j, x, hx, hdegraded⟩ => by simp [(hfresh j x hx.1).2.2] at hdegraded
    have hsome : m ≠ 0 := by
      rintro rfl
      have := (hm k).mpr ⟨o, hk, Nat.le_add_right _ _, Nat.le_add_right _ _⟩
      simp at this
    exact hgroup.adopt_of_blocked hsome
  case ends =>
    have hnone : NoneBlocked s.tracker.entries k := fun e he g hg => by rw [hentries e he g hg]; exact Bool.false_ne_true
    rw [State.unblock_ends_adopted hnone hadopted hblocked fun x hx => by rw [hl x hx]; exact Bool.false_ne_true,
      State.strayEnd_of_check (by exact hrole)]
    simp only [Passage.without, Bool.or_false]

end Sys2Proof.Machine
end

section
/-! PROOFS. Eye inputs: raw changes, the debounce expiry and the edges it hands on (R15, R95, R99, R102, R130, R153). -/

namespace Sys2Proof.Machine

open Sys2Proof

variable {s t u : State}

/-! ### A level taken (R15, R95, R99) -/

/-- The station with one eye replaced. -/
def State.eyeSet (s : State) (k : Lane) (e : Eye) : State := { s with eyes := s.eyes.set k e }

/-- An eye whose level has changed, with its runs at 0 (R95). -/
def Eye.edged (e : Eye) : Eye := { e with blocked := !e.blocked, clearRun := 0, blockedRun := 0 }

section
variable {k : Lane} {e : Eye}

theorem State.eyeSet_get : (s.eyeSet k e).eyes.get k = e := Quad.get_set_same _ _ _

theorem State.eyeSet_eyeSet (x : Eye) : (s.eyeSet k e).eyeSet k x = s.eyeSet k x := by
  simp only [State.eyeSet, Quad.set_set]

theorem State.takeLevel_of_same (h : e.raw = e.blocked) : (s.eyeSet k e).takeLevel k = s.eyeSet k e :=
  if_pos (by rw [State.eyeSet_get]; exact h)

theorem State.takeLevel_of_changed (h : e.raw ≠ e.blocked) :
    (s.eyeSet k e).takeLevel k = (s.eyeSet k e).levelChange k := if_neg (by rw [State.eyeSet_get]; exact h)

theorem State.takeLevel_of_off (h : e.raw ≠ e.blocked) (hstate : e.state = .off) :
    (s.eyeSet k e).takeLevel k = s.eyeSet k { e with blocked := !e.blocked } := by
  rw [State.takeLevel_of_changed h, State.levelChange, State.eyeSet_get, hstate]
  exact State.eyeSet_eyeSet _

theorem State.takeLevel_of_stuck (h : e.raw ≠ e.blocked) (hstate : e.state = .stuck) :
    (s.eyeSet k e).takeLevel k = (s.eyeSet k { e.edged with state := .normal, losses := 0 }).evalDrop := by
  rw [State.takeLevel_of_changed h, State.levelChange, State.eyeSet_get, hstate]
  exact congrArg State.evalDrop (State.eyeSet_eyeSet _)

theorem State.takeLevel_of_edge (h : e.raw ≠ e.blocked) (hstate : e.state = .normal ∨ e.state = .suspect) :
    (s.eyeSet k e).takeLevel k = if e.blocked then (s.eyeSet k e.edged).handTrailing k
      else (s.eyeSet k e.edged).handLeading k := by
  have hset : (s.eyeSet k e).eyeSet k e.edged = s.eyeSet k e.edged := State.eyeSet_eyeSet _
  rw [← hset, State.takeLevel_of_changed h, State.levelChange, State.eyeSet_get]
  obtain ⟨raw, blocked, state, losses, clearRun, blockedRun, debounce⟩ := e
  obtain rfl | rfl := hstate <;> rfl

/-! ### An edge handed on (R102) -/

theorem State.handLeading_of_check (h : s.role = some .check) :
    s.handLeading k = if s.running then s.trackLeading k else s := by
  rw [State.handLeading, h]

theorem State.handTrailing_of_check (h : s.role = some .check) :
    s.handTrailing k = if s.running then s.unblock k false else s := by
  rw [State.handTrailing, h]

theorem State.handLeading_of_feed (h : s.role = some .feed) :
    s.handLeading k = if s.running then (s.feedLeading k).evalDrop else s := by
  rw [State.handLeading, h]

theorem State.handTrailing_of_feed (h : s.role = some .feed) : s.handTrailing k = (s.endGrowing k).evalDrop := by
  rw [State.handTrailing, h]

theorem State.tracked_onLine {f : State → State} (hf : Within s (f s)) :
    (if s.running then f s else s).onLine = s.onLine := by
  split
  · exact hf.onLine
  · rfl

theorem State.running_of_off (h : s.onLine = false) : s.running = false := by
  rw [← Bool.not_eq_true] at h ⊢
  exact fun hrunning => h (State.onLine_of_running hrunning)

theorem State.handLeading_of_sort (h : s.role = some .sort) : s.handLeading k =
    if s.onLine then { (if s.running then s.trackLeading k else s) with
      sort := (if s.running then s.trackLeading k else s).sort.leadingEdge
        (if s.running then s.trackLeading k else s).eyes k }
    else s := by
  have hline := State.tracked_onLine (s := s) (f := fun s => s.trackLeading k) (State.trackLeading_within s k)
  rw [State.handLeading, h]
  simp only [hline]
  by_cases hon : s.onLine = true
  · simp only [hon, if_true]
  · rw [if_neg hon, if_neg hon, State.running_of_off (by simpa using hon), if_neg Bool.false_ne_true]

theorem State.handTrailing_of_sort (h : s.role = some .sort) : s.handTrailing k =
    if s.onLine then { (if s.running then s.unblock k false else s) with
      sort := (if s.running then s.unblock k false else s).sort.trailingEdge }
    else s := by
  have hline := State.tracked_onLine (s := s) (f := fun s => s.unblock k false) (State.unblock_within s k false)
  rw [State.handTrailing, h]
  simp only [hline]
  by_cases hon : s.onLine = true
  · simp only [hon, if_true]
  · rw [if_neg hon, if_neg hon, State.running_of_off (by simpa using hon), if_neg Bool.false_ne_true]

/-! ### What an edge leaves of the other eyes -/

theorem State.withSort_eyes (r : SortUnit × List Occurrence) : (s.withSort r).eyes = s.eyes :=
  (State.occurAll_quiet _ _).eyes

theorem State.sortPiece_eyes (p : SortPiece) : (s.sortPiece p).eyes = s.eyes := by
  unfold State.sortPiece
  split
  · exact State.withSort_eyes _
  · rfl

theorem State.handOn_eyes (p : Piece) (degraded : Bool) (since : Nat) : (s.handOn p degraded since).eyes = s.eyes := by
  unfold State.handOn
  split
  · exact (State.add_quiet _ _ _).eyes
  · exact State.sortPiece_eyes _
  · rfl
  · rfl

theorem State.adopt_eyes (o : Orphan) : (s.adopt k o).eyes = s.eyes := by
  have hgone (ks : List Lane) : (s.strayGone k o.travel ks).eyes = s.eyes := (State.occur_quiet s.draw.2 _).eyes
  rw [State.adopt_eq]
  simp only []
  split
  · exact (State.handOn_eyes _ _ _).trans (hgone _)
  · exact hgone (s.strayLanes k o)

theorem State.matchedSighting_eyes_other {j : Lane} (h : j ≠ k) : (s.matchedSighting k).eyes.get j = s.eyes.get j :=
  Quad.get_set_other _ _ _ _ h

theorem State.makeOrphan_eyes : (s.makeOrphan k).eyes = s.eyes := by
  cases ho : s.tracker.orphans.get k with
  | none => rw [State.makeOrphan_of_none ho]
  | some o =>
    rw [State.makeOrphan_of_some ho]
    exact State.adopt_eyes o

theorem State.trackLeading_eyes_other {j : Lane} (h : j ≠ k) : (s.trackLeading k).eyes.get j = s.eyes.get j := by
  unfold State.trackLeading
  split
  · split
    · exact State.matchedSighting_eyes_other h
    · rfl
  · split
    · exact State.matchedSighting_eyes_other h
    · rw [State.makeOrphan_eyes]

theorem cleanEdge_iff {eyes : Quad Eye} : cleanEdge eyes k = true ↔ ∀ j : Lane, j ≠ k →
    (eyes.get j).state = .normal ∨ (eyes.get j).state = .suspect → (eyes.get j).blocked = false := by
  rw [cleanEdge, List.all_eq_true]
  simp only [mem_lanes, true_imp_iff, Bool.or_eq_true, beq_iff_eq, Bool.not_eq_true', Bool.or_eq_false_iff, beq_eq_false_iff_ne]
  refine forall_congr' fun j => ?_
  tauto

end

/-! ### Off the line (R15, R95) -/

section
variable {k : Lane}

theorem State.evalDrop_of_off (h : s.onLine = false) : s.evalDrop = s := by
  have hrunning : s.control.state ≠ .running := fun hr => by
    rw [← Bool.not_eq_true] at h
    exact h (State.onLine_iff.mpr (.inr hr))
  unfold State.evalDrop
  split
  · split
    · rfl
    · refine if_neg fun htest => hrunning ?_
      exact (State.lineAllows_iff.mp (State.dropTest_iff.mp htest).1).1
  · rfl

theorem State.handLeading_of_off (h : s.onLine = false) : s.handLeading k = s := by
  have hrunning := State.running_of_off h
  unfold State.handLeading
  simp only [hrunning, h, Bool.false_eq_true, if_false]
  split <;> rfl

theorem State.handTrailing_of_off (h : s.onLine = false) (hmap : s.feed.map = []) : s.handTrailing k = s := by
  have hrunning := State.running_of_off h
  have hfeed : (s.endGrowing k).evalDrop = s := by rw [State.endGrowing_of_empty hmap, State.evalDrop_of_off h]
  unfold State.handTrailing
  simp only [hrunning, h, hfeed, Bool.false_eq_true, if_false]
  split <;> rfl

end

/-! ### The feed unit's part (R130) -/

section
variable {k : Lane}

theorem soleLane_laneBit (k : Lane) : soleLane (laneBit k) = some k := by
  revert k
  decide

theorem Stretch.distance_eq_zero_iff {x : Stretch} {widen : Nat} {e : Int} :
    x.distance widen e = 0 ↔ x.head - widen ≤ e ∧ e ≤ x.head + x.length + widen := by
  rw [Stretch.distance, Stretch.tail]
  omega

theorem Stretch.distance_eq (x : Stretch) (widen : Nat) (e : Int) : x.distance widen e =
    if e < x.head - widen then x.head - widen - e
    else if x.head + x.length + widen < e then e - (x.head + x.length + widen) else 0 := by
  rw [Stretch.distance, Stretch.tail]
  split_ifs <;> omega

theorem covered_iff {im : Image} {map : List Stretch} : covered im map k = true
    ↔ ∃ x, (x ∈ map ∧ x.kind = .piece ∧ x.mask.getLsbD k.val = true)
      ∧ x.head - Image.earlyFixed im ≤ (Image.beltEye im : Int)
      ∧ (Image.beltEye im : Int) ≤ x.head + x.length + Image.earlyFixed im := by
  simp only [covered, List.any_eq_true, Bool.and_eq_true, beq_iff_eq, hasLane, decide_eq_true_eq,
    Stretch.distance_eq_zero_iff, and_assoc]

theorem foldl_min_eq {α : Type} {near : α → Bool} {far : α → Int} (l : List α) {m n : Int} (hm : n ≤ m)
    (hall : ∀ x ∈ l, near x = true → n ≤ far x) (hsome : n = m ∨ ∃ x ∈ l, near x = true ∧ far x = n) :
    l.foldl (fun m x => if near x then min m (far x) else m) m = n := by
  induction l generalizing m with
  | nil =>
    rcases hsome with h | ⟨x, hx, -⟩
    · exact h.symm
    · exact absurd hx (by simp)
  | cons y l ih =>
    have hrest : ∀ x ∈ l, near x = true → n ≤ far x := fun x hx => hall x (List.mem_cons_of_mem y hx)
    rw [List.foldl_cons]
    by_cases hy : near y = true
    · rw [if_pos hy]
      have hle := hall y List.mem_cons_self hy
      refine ih (le_min hm hle) hrest ?_
      rcases hsome with rfl | ⟨x, hx, hnear, hfar⟩
      · exact .inl (min_eq_left hle).symm
      · rcases List.mem_cons.mp hx with rfl | hx
        · exact .inl (by omega)
        · exact .inr ⟨x, hx, hnear, hfar⟩
    · rw [if_neg hy]
      refine ih hm hrest (hsome.imp id ?_)
      rintro ⟨x, hx, hnear, hfar⟩
      rcases List.mem_cons.mp hx with rfl | hx
      · exact absurd hnear hy
      · exact ⟨x, hx, hnear, hfar⟩

theorem State.feedLeading_of_covered (h : covered s.image s.feed.map k = true) : s.feedLeading k = s := if_pos h

theorem State.feedLeading_of_not (h : ¬ covered s.image s.feed.map k = true) : s.feedLeading k =
    (s.insertStretch ⟨.piece, 0, none, laneBit k, Image.beltEye s.image, 0, true, false⟩).occur
      ⟨.unannounced, none, some k, detail16 (coverDistance s.image s.feed.map k)⟩ := if_neg h

end

/-! ### The commands (R15) -/

section
variable {k : Lane} {b : Bool}

theorem exec_eyeRawChange_of_timed (h : (s.eyes.get k).raw ≠ b) (hfrozen : s.spi.frozen = true)
    (htime : Image.byte s.image 0x007 ≠ 0) : exec (.eyeRawChange k b) s = .next (s.eyeSet k { s.eyes.get k with
      raw := b, debounce := .running (Image.byte s.image 0x007) s.timeBase }) := by
  refine (if_neg h).trans (if_pos ?_)
  rw [hfrozen, Bool.true_and]
  exact bne_iff_ne.mpr htime

theorem exec_eyeRawChange_of_untimed (h : (s.eyes.get k).raw ≠ b)
    (hnot : s.spi.frozen = false ∨ Image.byte s.image 0x007 = 0) :
    exec (.eyeRawChange k b) s = .next ((s.eyeSet k { s.eyes.get k with raw := b }).takeLevel k) := by
  refine (if_neg h).trans (if_neg ?_)
  rw [Bool.and_eq_true, bne_iff_ne]
  rcases hnot with hnot | hnot
  · exact fun hboth => absurd (hnot.symm.trans hboth.1) (by decide)
  · exact fun hboth => hboth.2 hnot

theorem exec_eyeDebounceExpiry_of_running {n start : Nat} (h : (s.eyes.get k).debounce = .running n start) :
    exec (.eyeDebounceExpiry k) s = .next ((State.eyeSet { s with timeBase := max s.timeBase (start + n) } k
      { s.eyes.get k with debounce := .stopped }).takeLevel k) := by
  have hrunning : (s.eyes.get k).debounce.isRunning = true := by rw [h]; rfl
  refine (if_pos hrunning).trans ?_
  rw [h]
  rfl

end

/-- Settles O7: a raw change is held off, or taken as an expiry takes it; and an edge goes to the role block. -/
theorem eyeRawChangeAndDebounceExpiry : Obligations.EyeRawChangeAndDebounceExpiry := by
  refine ⟨fun s k b => ?raw, fun s k n start => ?expiry, fun s k => ?feed⟩
  case raw =>
    intro e
    refine ⟨fun h => if_pos h, exec_eyeRawChange_of_timed, fun h hfrozen hlevel hstuck hrest hoff => ?_,
      fun h hfrozen htime hstopped => ?_⟩
    · obtain ⟨-, hfeed, -⟩ := hrest hoff
      have hmap : s.feed.map = [] := by rw [hfeed]; rfl
      have hchanged : ({ e with raw := b } : Eye).raw ≠ ({ e with raw := b } : Eye).blocked :=
        fun hb => h ((hlevel ▸ hb).symm)
      have hflip : (!e.blocked) = b := by
        rw [hlevel]
        revert h
        cases e.raw <;> cases b <;> simp
      rw [exec_eyeRawChange_of_untimed h (.inl hfrozen)]
      by_cases hstate : e.state = .off
      · rw [State.takeLevel_of_off hchanged hstate, if_pos hstate, hflip]
        rfl
      · have hedge : e.state = .normal ∨ e.state = .suspect := by
          revert hstate hstuck
          cases e.state <;> simp
        rw [State.takeLevel_of_edge hchanged hedge, if_neg hstate, State.handTrailing_of_off (by exact hoff) (by exact hmap),
          State.handLeading_of_off (by exact hoff), ite_self, Eye.edged, hflip]
        rfl
    · have hsame : ({ e with raw := b, debounce := .stopped } : Eye) = { e with raw := b } := by
        rw [← hstopped]
      rw [exec_eyeRawChange_of_untimed h (.inr htime),
        exec_eyeDebounceExpiry_of_running (n := 0) (start := s.timeBase) (by rw [Quad.get_set_same])]
      simp only [Quad.get_set_same, Nat.add_zero, Nat.max_self]
      rw [hsame]
      exact congrArg (fun u => Host.Outcome.next (State.takeLevel u k)) (State.eyeSet_eyeSet _).symm
  case expiry =>
    intro e now put flipped hrunning
    have hexec : exec (.eyeDebounceExpiry k) s = .next ((now.eyeSet k { e with debounce := .stopped }).takeLevel k) :=
      exec_eyeDebounceExpiry_of_running hrunning
    refine ⟨fun hsame => ?_, fun hchanged hoff => ?_, fun hchanged hstuck => ?_, fun hchanged hedge => ?_⟩
    · rw [hexec, State.takeLevel_of_same (by exact hsame)]
      rfl
    · rw [hexec, State.takeLevel_of_off (by exact hchanged) (by exact hoff)]
      rfl
    · rw [hexec, State.takeLevel_of_stuck (by exact hchanged) (by exact hstuck)]
      rfl
    · have hedged : exec (.eyeDebounceExpiry k) s = .next
          (if e.blocked then flipped.handTrailing k else flipped.handLeading k) := by
        rw [hexec, State.takeLevel_of_edge (by exact hchanged) (by exact hedge)]
        rfl
      have hline : flipped.onLine = s.onLine := rfl
      have hrun : flipped.running = s.running := rfl
      rw [hedged]
      refine ⟨fun hrole => ?check, fun hrole => ?belt, fun hrole hoff => ?offline, fun hrole hon hblocked => ?trailing,
        fun hrole hon hclear => ?leading⟩
      case check =>
        rw [State.handTrailing_of_check (by exact hrole), State.handLeading_of_check (by exact hrole), hrun]
        cases s.running with
        | false => simp only [Bool.false_eq_true, if_false, ite_self, if_true]
        | true => rfl
      case belt =>
        rw [State.handTrailing_of_feed (by exact hrole), State.handLeading_of_feed (by exact hrole), hrun]
      case offline =>
        rw [State.handTrailing_of_sort (by exact hrole), State.handLeading_of_sort (by exact hrole), hline, hoff,
          if_neg Bool.false_ne_true, if_neg Bool.false_ne_true, ite_self]
      case trailing =>
        intro u
        rw [if_pos hblocked, State.handTrailing_of_sort (by exact hrole), if_pos (hline.trans hon), hrun]
        rfl
      case leading =>
        intro u clean
        have hothers (j : Lane) (hj : j ≠ k) : u.eyes.get j = s.eyes.get j := by
          have hflipped : flipped.eyes.get j = s.eyes.get j := Quad.get_set_other _ _ _ _ hj
          show (if s.running then flipped.trackLeading k else flipped).eyes.get j = s.eyes.get j
          split
          · rw [State.trackLeading_eyes_other hj, hflipped]
          · exact hflipped
        have hclean : cleanEdge u.eyes k = true ↔ clean := by
          rw [cleanEdge_iff]
          exact forall₂_congr fun j hj => by rw [hothers j hj]
        have hhand : flipped.handLeading k = { u with sort := u.sort.leadingEdge u.eyes k } := by
          rw [State.handLeading_of_sort (by exact hrole), if_pos (hline.trans hon), hrun]
        rw [if_neg (by simp [hclear]), hhand, SortUnit.leadingEdge]
        refine ⟨fun h => ?_, fun h => ?_⟩
        · rw [if_pos (hclean.mpr h)]
        · rw [if_neg (mt hclean.mp h)]
  case feed =>
    intro point wide near away
    have haway (x : Stretch) : x.distance (Image.earlyFixed s.image) (Image.beltEye s.image) = away x :=
      Stretch.distance_eq x _ _
    have hcovered : covered s.image s.feed.map k = true
        ↔ ∃ x, near x ∧ x.head - wide ≤ point ∧ point ≤ x.head + x.length + wide := covered_iff
    refine ⟨fun h => State.feedLeading_of_covered (hcovered.mpr h), fun n hn hall hleast => ?_⟩
    have hnot : ¬ covered s.image s.feed.map k = true := by
      rw [hcovered]
      rintro ⟨x, hx, hcover⟩
      have hzero : away x = 0 := (haway x).symm.trans (Stretch.distance_eq_zero_iff.mpr hcover)
      exact absurd (hall x hx).1 (by rw [hzero]; decide)
    have hdistance : coverDistance s.image s.feed.map k = n := by
      have hnear {x : Stretch} : x ∈ s.feed.map ∧ (x.kind == .piece && hasLane x.mask k) = true ↔ near x := by
        simp [near, hasLane]
      refine foldl_min_eq s.feed.map hn (fun x hx hx' => ?_) (hleast.imp id ?_)
      · rw [haway]
        exact (hall x (hnear.mp ⟨hx, hx'⟩)).2
      · rintro ⟨x, hx, hxn⟩
        obtain ⟨hmem, hx'⟩ := hnear.mpr hx
        exact ⟨x, hmem, hx', (haway x).trans hxn⟩
    rw [State.feedLeading_of_not hnot, hdistance]
    by_cases hroom : s.feed.map.length < 24
    · rw [if_pos hroom, State.insertStretch_of_room (mapHasRoom_iff.mpr hroom)]
      rfl
    · rw [if_neg hroom, State.insertStretch_of_full (mt mapHasRoom_iff.mp hroom), soleLane_laneBit]
      rfl

end Sys2Proof.Machine
end

section
/-! PROOFS. A travel advance: what moves in every block, and what a forward advance brings about at a CHECK or SORT
station (R6, R83, R97, R98, R108, R114, R153, R159). -/

namespace Sys2Proof.Machine

open Sys2Proof

variable {s t u : State}

/-! ### The tag of an eye becoming STUCK (R98) -/

section
variable {v : Tracker} {k : Lane} {e : Entry} {g : Passage} {l r : List Entry} {a : Adopted} {m q : List Adopted}

theorem Tracker.blockedTag_of_entry (h : v.blockedEntry k = some (e, g)) : v.blockedTag k = some e.piece.tag := by
  rw [Tracker.blockedTag, h]

theorem Tracker.blockedTag_of_none (h : v.blockedEntry k = none) :
    v.blockedTag k = (v.blockedAdopted k).map (·.piece.tag) := by
  rw [Tracker.blockedTag, h]

/-- The STUCK test at a CHECK or SORT station: the occurrence, then the lane leaves its record (R98, R113). -/
theorem State.testStuck_of_tracks (htracks : s.tracks = true) (h : (s.eyes.get k).goesStuck s.image = true) :
    s.testStuck k = (s.stuckEye k (s.tracker.blockedTag k)).unblock k true := by
  have hstill : (s.stuckEye k (s.tracker.blockedTag k)).tracks = true := by
    rw [State.tracks_iff, State.stuckEye_role]
    exact State.tracks_iff.mp htracks
  rw [State.testStuck_of_goes h, if_pos htracks, State.laneStuck_of_tracks hstill]

end

/-! ### What moves (R44, R83, R97, R108, R114) -/

theorem Passage.advance_eq (g : Passage) (d : Int) :
    g.advance d = { g with travel := if 65535 ≤ g.travel then g.travel else heldSum g.travel d } := by
  rw [← Passage.advance_travel]
  rfl

theorem Eye.advance_eq (e : Eye) (d : Int) : e.advance d =
    if e.state = .off then e
    else if e.blocked then { e with blockedRun := heldSum e.blockedRun d }
    else { e with clearRun := heldSum e.clearRun d } := by
  simp only [Eye.advance, addTravel_eq_heldSum]

theorem Notice.aged_iff {n : Notice} : n.aged = true ↔ n.code = 4 ∨ n.code = 5 ∨ n.code = 6 := by
  cases n <;> simp [Notice.aged, Notice.code]

theorem LinePort.advance_eq (p : LinePort) (d : Int) : p.advance d = { p with
    queue := p.queue.map fun (x : Slot) =>
      if x.notice.code = 4 ∨ x.notice.code = 5 ∨ x.notice.code = 6 then { x with age := heldSum x.age d } else x } := by
  simp only [LinePort.advance, Notice.aged_iff, addTravel_eq_heldSum]

theorem Orphan.advance_eq (o : Orphan) (d : Int) : o.advance d = { o with
    travel := heldSum o.travel d
    clear := o.clear.map fun c => { c with since := heldSum c.since d } } := by
  simp only [Orphan.advance, addTravel_eq_heldSum]

theorem Entry.advance_eq (e : Entry) (d : Int) : e.advance d = { e with
    remaining := max (-32768) (min 32767 (e.remaining - d))
    passage := e.passage.map fun g =>
      { g with travel := if 65535 ≤ g.travel then g.travel else heldSum g.travel d } } := by
  rw [← funext fun g => Passage.advance_eq g d]
  rfl

theorem Tracker.advance_entries (v : Tracker) (d : Int) :
    ((v.advance d).entries).Perm (v.entries.map (·.advance d)) := orderEntries_perm _

theorem State.moveAll_tracker_of_tracks {d : Int} (h : s.tracks = true) :
    (s.moveAll d).tracker = s.tracker.advance d := if_pos h

theorem State.moveAll_tracker_of_not {d : Int} (h : ¬ s.tracks = true) : (s.moveAll d).tracker = s.tracker := if_neg h

theorem State.moveAll_sort_of_sort {d : Int} (h : s.role = some .sort) :
    (s.moveAll d).sort = s.sort.advance s.bladePulse d := if_pos h

theorem State.moveAll_sort_of_not {d : Int} (h : s.role ≠ some .sort) : (s.moveAll d).sort = s.sort := if_neg h

/-! ### The sort unit's part (R153, R159) -/

/-- The route code after an action (R159). -/
def Action.routed (r : Dest) (a : Action) : Dest :=
  match a.kind with
  | .setRoute code => code
  | .fireBlade => r

section
variable {v : SortUnit} {pulse : Timer} {d : Int}

theorem SortUnit.performAll_route (l : List Action) :
    (l.foldl (fun w a => w.perform pulse a.kind) v).route = l.foldl Action.routed v.route := by
  induction l generalizing v with
  | nil => rfl
  | cons a l ih =>
    rw [List.foldl_cons, List.foldl_cons, ih]
    congr 1
    rw [Action.routed]
    cases a.kind <;> rfl

theorem SortUnit.performAll_bladeTimer (l : List Action) : (l.foldl (fun w a => w.perform pulse a.kind) v).bladeTimer
    = if l.any fun a => a.kind == .fireBlade then pulse else v.bladeTimer := by
  induction l generalizing v with
  | nil => rfl
  | cons a l ih =>
    rw [List.foldl_cons, ih, List.any_cons]
    cases a.kind with
    | setRoute code =>
      have hno : (ActionKind.setRoute code == ActionKind.fireBlade) = false := rfl
      rw [hno, Bool.false_or]
      rfl
    | fireBlade =>
      have hyes : (ActionKind.fireBlade == ActionKind.fireBlade) = true := rfl
      rw [hyes, Bool.true_or, if_pos rfl]
      exact ite_self _

theorem SortUnit.advance_of_forward (h : 0 < d) : v.advance pulse d = (v.move d).performDue pulse := if_pos h

theorem SortUnit.advance_of_reverse (h : ¬ 0 < d) : v.advance pulse d = v.move d := if_neg h

/-- The action as forward travel leaves it (R159). -/
def Action.forward (d : Int) (a : Action) : Action := { a with countdown := max (-32768) (a.countdown - d) }

theorem SortUnit.move_actions_of_forward (h : 0 < d) : (v.move d).actions = v.actions.map (Action.forward d) := if_pos h

/-- The actions due are those whose countdown the advance has covered (R159). -/
theorem forward_due (l : List Action) : (l.map (Action.forward d)).filter (fun a => decide (a.countdown ≤ 0))
    = (l.filter fun a => decide (a.countdown ≤ d)).map (Action.forward d) := by
  rw [List.filter_map]
  refine congrArg (List.map (Action.forward d)) (List.filter_congr fun a _ => ?_)
  have hdue : max (-32768) (a.countdown - d) ≤ 0 ↔ a.countdown ≤ d := by omega
  exact decide_eq_decide.mpr hdue

theorem SortUnit.advance_forward_actions (h : 0 < d) : (v.advance pulse d).actions
    = (v.actions.filter fun a => Decidable.decide (d < a.countdown)).map fun a => { a with countdown := a.countdown - d } := by
  rw [SortUnit.advance_of_forward h, SortUnit.performDue_actions, SortUnit.move_actions_of_forward h]
  exact forward_actions v.actions d

theorem SortUnit.advance_forward_performs (h : 0 < d) :
    (v.advance pulse d).route = (v.actions.filter fun a => Decidable.decide (a.countdown ≤ d)).foldl Action.routed v.route
    ∧ (v.advance pulse d).bladeTimer
      = if (v.actions.filter fun a => Decidable.decide (a.countdown ≤ d)).any fun a => a.kind == .fireBlade then pulse
        else v.bladeTimer := by
  have hdue : (v.move d).actions.filter (fun a => Decidable.decide (a.countdown ≤ 0))
      = (v.actions.filter fun a => Decidable.decide (a.countdown ≤ d)).map (Action.forward d) := by
    rw [SortUnit.move_actions_of_forward h]
    exact forward_due v.actions
  rw [SortUnit.advance_of_forward h, SortUnit.performDue]
  refine ⟨?_, ?_⟩
  · rw [SortUnit.performAll_route, hdue, List.foldl_map]
    rfl
  · rw [SortUnit.performAll_bladeTimer, hdue, List.any_map]
    rfl

/-- An advance moves the gap counter, and leaves what is neither a distance nor an action performed (R153). -/
theorem SortUnit.advance_rest : (v.advance pulse d).gapCounter = heldSum v.gapCounter d
    ∧ (v.advance pulse d).entryGap = v.entryGap ∧ (v.advance pulse d).lastRoute = v.lastRoute
    ∧ (v.advance pulse d).stackers = v.stackers ∧ (v.advance pulse d).runout = v.runout
    ∧ (v.advance pulse d).tally = v.tally := by
  have hstacks : (v.move d).Stacks (v.advance pulse d) := by
    unfold SortUnit.advance
    split
    · obtain ⟨hstacks, -⟩ := SortUnit.performAll_stacks pulse
        ((v.move d).actions.filter fun a => Decidable.decide (a.countdown ≤ 0))
        { v.move d with actions := (v.move d).actions.filter fun a => Decidable.decide (0 < a.countdown) }
      exact ⟨hstacks.stackers, hstacks.runout, hstacks.tally, hstacks.gapCounter, hstacks.entryGap, hstacks.lastRoute⟩
    · exact .refl _
  exact ⟨hstacks.gapCounter.trans (addTravel_eq_heldSum _ _), hstacks.entryGap, hstacks.lastRoute, hstacks.stackers,
    hstacks.runout, hstacks.tally⟩

/-- The greatest countdown, at or above the lowest a countdown can stand at. -/
def SortUnit.greatestCountdown (v : SortUnit) : Int := v.actions.foldl (fun m a => max m a.countdown) (-32768)

theorem SortUnit.move_actions_of_reverse (h : ¬ 0 < d) : (v.move d).actions
    = v.actions.map fun a => { a with countdown := a.countdown + min (-d) (32767 - v.greatestCountdown) } := if_neg h

theorem SortUnit.greatestCountdown_eq {a : Action} (ha : a ∈ v.actions) (hlow : -32768 ≤ a.countdown)
    (hgreatest : ∀ b ∈ v.actions, b.countdown ≤ a.countdown) : v.greatestCountdown = a.countdown :=
  le_antisymm (greatest_le _ _ _ hlow hgreatest) ((le_greatest _ _).2 a ha)

/-- Reverse travel that keeps every countdown in its range adds its whole amount (R159). -/
theorem SortUnit.advance_reverse_whole (h : ¬ 0 < d) (hlow : ∀ a ∈ v.actions, -32768 ≤ a.countdown)
    (hrange : ∀ a ∈ v.actions, a.countdown - d ≤ 32767) : (v.advance pulse d).actions
      = v.actions.map fun a => { a with countdown := a.countdown - d } := by
  rw [SortUnit.advance_of_reverse h, SortUnit.move_actions_of_reverse h]
  refine List.map_congr_left fun a ha => ?_
  have hgreatest : v.greatestCountdown ≤ 32767 + d := by
    have := hlow a ha
    have := hrange a ha
    exact greatest_le _ _ _ (by omega) fun b hb => by have := hrange b hb; omega
  have hrise : min (-d) (32767 - v.greatestCountdown) = -d := min_eq_left (by omega)
  rw [hrise, Int.sub_eq_add_neg]

/-- Reverse travel beyond the range brings the greatest countdown to 32767 and the others as far (R159). -/
theorem SortUnit.advance_reverse_held (h : ¬ 0 < d) {a : Action} (ha : a ∈ v.actions) (hlow : -32768 ≤ a.countdown)
    (hgreatest : ∀ b ∈ v.actions, b.countdown ≤ a.countdown) (hover : 32767 < a.countdown - d) :
    (v.advance pulse d).actions = v.actions.map fun b => { b with countdown := b.countdown + (32767 - a.countdown) } := by
  have hrise : min (-d) (32767 - v.greatestCountdown) = 32767 - a.countdown := by
    rw [SortUnit.greatestCountdown_eq ha hlow hgreatest]
    exact min_eq_right (by omega)
  rw [SortUnit.advance_of_reverse h, SortUnit.move_actions_of_reverse h, hrise]

end

/-! ### The advance of a CHECK or SORT station (R6, R84, R98, R117) -/

theorem State.closeWindows_of_none (h : ∀ e ∈ s.tracker.entries, e.passage = none → -(e.late : Int) ≤ e.remaining) :
    s.closeWindows = s := by
  have hnone : s.tracker.entries.filter Entry.closes = [] := by
    refine List.filter_eq_nil_iff.mpr fun e he hcloses => ?_
    rw [Entry.closes_eq, decide_eq_true_eq] at hcloses
    exact absurd (h e he hcloses.1) (Int.not_le.mpr hcloses.2)
  rw [State.closeWindows, hnone]
  rfl

theorem State.foldl_testStuck_of_none (l : List Lane) (h : ∀ k, ¬ (s.eyes.get k).goesStuck s.image = true) :
    l.foldl State.testStuck s = s := by
  induction l with
  | nil => rfl
  | cons k l ih => rw [List.foldl_cons, State.testStuck_of_not (h k), ih]

section
variable {d : Int}

theorem State.moveFeed_of_not_feed (h : s.role ≠ some .feed) : s.moveFeed d = s := if_neg h

theorem State.travelAdvance_of_reverse (hrole : s.role ≠ some .feed) (hd : ¬ 0 < d) : s.travelAdvance d = s.moveAll d := by
  unfold State.travelAdvance
  rw [State.moveFeed_of_not_feed (by exact hrole)]
  simp only [if_neg hd]
  exact if_neg hrole

theorem State.travelAdvance_of_forward (htracks : s.tracks = true) (hd : 0 < d) : s.travelAdvance d
    = ((lanes.foldl State.testStuck (s.moveAll d)).adoptPastGrace 4).closeWindows := by
  have hfeed : s.role ≠ some .feed := State.not_feed_of_tracks (State.tracks_iff.mp htracks)
  have hwithin : Within (s.moveAll d) (lanes.foldl State.testStuck (s.moveAll d)) :=
    within_foldl State.testStuck State.testStuck_within lanes _
  have hstill : (lanes.foldl State.testStuck (s.moveAll d)).tracks = true := by
    rw [State.tracks_iff, hwithin.role]
    exact State.tracks_iff.mp htracks
  have hevents : (s.moveAll d).forwardEvents
      = ((lanes.foldl State.testStuck (s.moveAll d)).adoptPastGrace 4).closeWindows := if_pos hstill
  have hrole : (s.moveAll d).forwardEvents.role ≠ some .feed := by
    rw [(State.forwardEvents_within _).role]
    exact hfeed
  unfold State.travelAdvance
  rw [State.moveFeed_of_not_feed (by exact hfeed)]
  simp only [if_pos hd]
  exact (if_neg hrole).trans hevents

end

/-- Settles O6: the STUCK test by the record that has the lane blocked, the move of each block, and what forward travel
brings about after it. -/
theorem advanceMovesDistances : Obligations.AdvanceMovesDistances := by
  refine ⟨fun s k hrole => ?stuck, fun s d => ?moves⟩
  case stuck =>
    intro e held goes stuck noEntry
    have htracks : s.tracks = true := State.tracks_iff.mpr hrole
    have hgoes : (s.eyes.get k).goesStuck s.image = true ↔ goes := Eye.goesStuck_iff
    have htest (tag : Option Tag) (h : goes) (htag : s.tracker.blockedTag k = tag) : s.testStuck k = stuck tag := by
      rw [State.testStuck_of_tracks htracks (hgoes.mpr h), htag]
      rfl
    refine ⟨fun h => State.testStuck_of_not (mt hgoes.mp h), fun l x r g h hentries hg hheld hfirst => htest _ h ?_,
      fun l a r h hentries hadopted hheld hfirst => htest _ h ?_, fun h hentries hadopted => htest _ h ?_⟩
    · exact Tracker.blockedTag_of_entry (Tracker.blockedEntry_of_first hentries hg hheld hfirst)
    · rw [Tracker.blockedTag_of_none (Tracker.blockedEntry_of_none hentries),
        Tracker.blockedAdopted_of_first hadopted hheld hfirst]
      rfl
    · rw [Tracker.blockedTag_of_none (Tracker.blockedEntry_of_none hentries), Tracker.blockedAdopted_of_none hadopted]
      rfl
  case moves =>
    intro m run tracks
    have htracks : s.tracks = true ↔ tracks := State.tracks_iff
    refine ⟨fun k => ?eyes, LinePort.advance_eq _ _, fun h => ?tracker, fun h => State.moveAll_tracker_of_not (mt htracks.mp h),
      State.moveAll_sort_of_not, fun hsort => ?sort, rfl, rfl, rfl, rfl, rfl, rfl, rfl, rfl, fun h => ?advance⟩
    case eyes =>
      exact (Quad.get_mapAt _ _ k).trans (Eye.advance_eq _ _)
    case tracker =>
      have hmoved : m.tracker = s.tracker.advance d := State.moveAll_tracker_of_tracks (htracks.mpr h)
      have hrun (g : Passage) : g.advance d = run g := Passage.advance_eq g d
      rw [hmoved]
      refine ⟨?_, rfl, ?_, fun k => ?_⟩
      · rw [← funext fun e => Entry.advance_eq e d]
        exact Tracker.advance_entries _ _
      · exact List.map_congr_left fun a _ => by rw [hrun]
      · exact (Quad.get_mapAt _ _ k).trans (congrArg (s.tracker.orphans.get k).map (funext fun o => Orphan.advance_eq o d))
    case sort =>
      intro due
      have hmoved : m.sort = s.sort.advance s.bladePulse d := State.moveAll_sort_of_sort hsort
      obtain ⟨hgap, hentry, hlast, hstackers, hrunout, htally⟩ := SortUnit.advance_rest (v := s.sort) (pulse := s.bladePulse)
        (d := d)
      rw [hmoved]
      refine ⟨hgap, hentry, hlast, hstackers, hrunout, htally, fun hd => ?_, fun hd hlow => ?_⟩
      · obtain ⟨hroute, hblade⟩ := SortUnit.advance_forward_performs (v := s.sort) (pulse := s.bladePulse) hd
        exact ⟨SortUnit.advance_forward_actions hd, hroute, hblade⟩
      · have hreverse : ¬ 0 < d := Int.not_lt.mpr hd
        refine ⟨?_, ?_, SortUnit.advance_reverse_whole hreverse hlow, fun a ha hgreatest hover =>
          SortUnit.advance_reverse_held hreverse ha (hlow a ha) hgreatest hover⟩
        · rw [SortUnit.advance_of_reverse hreverse]
          rfl
        · rw [SortUnit.advance_of_reverse hreverse]
          rfl
    case advance =>
      have hforward (hd : 0 < d) := State.travelAdvance_of_forward (htracks.mpr h) hd
      refine ⟨fun hd => State.travelAdvance_of_reverse (State.not_feed_of_tracks h) (Int.not_lt.mpr hd), hforward,
        fun hd heyes horphans hentries => ?_⟩
      have hstuck (k : Lane) : ¬ (m.eyes.get k).goesStuck m.image = true := by
        rw [Eye.goesStuck_iff]
        exact fun ⟨hblocked, hstate, hlong⟩ => absurd (heyes k hblocked hstate) (Nat.not_le.mpr hlong)
      rw [hforward hd, State.foldl_testStuck_of_none lanes hstuck, State.adoptPastGrace_of_none (s := m) horphans,
        State.closeWindows_of_none (s := m) hentries]

end Sys2Proof.Machine
end
